-- ==== Sys2Proof/Word.lean ====
section
/-! DEFINITION. The value types of the CHIP-8 core: bytes, instruction words and addresses, the instruction's
fields. Rules R12, R13 (spec/00_scope.md), R71 and R72 (spec/30_encoding.md). -/

namespace Sys2Proof

/-- A byte: a general register, a timer, a memory byte (rules R12, R20, R50). -/
abbrev Byte := BitVec 8

/-- 16 bits: an instruction word (R70), the program counter and a call-stack slot (R7), the index register (R8). -/
abbrev Word := BitVec 16

/-- The 12-bit immediate `addr` of an instruction (R72). -/
abbrev Addr12 := BitVec 12

/-- A 4-bit field of an instruction word (R71). -/
abbrev Nibble := BitVec 4

/-- The index of a general register, 0 to 15 (R4, R20). -/
abbrev Reg := Fin 16

/-- The index of the flag register `VF` = `V[15]` (R22). -/
abbrev regVF : Reg := 15

end Sys2Proof
end

