-- ==== Sys2Proof/Syntax.lean ====
section
/-! DEFINITION. The instructions: one constructor per row of spec/opcode_table.json, in the order of rule R78
(spec/30_encoding.md). Register fields are register indices, immediates are bit vectors of the field's width (R75). -/

namespace Sys2Proof

/-- The 36 rows of rule R78. `SHR` and `SHL` keep the field `y` that they ignore (R81), so that an instruction
determines its word. -/
inductive Instr where
  /-- `HALT`, word `0000` (R100). -/
  | halt
  /-- `CLS`, word `00E0` (R150). -/
  | cls
  /-- `RET`, word `00EE` (R104). -/
  | ret
  /-- `SYS addr`, pattern `0NNN` but for the three fixed words (R103). -/
  | sys (addr : Addr12)
  /-- `JP addr`, pattern `1NNN` (R101). -/
  | jp (addr : Addr12)
  /-- `CALL addr`, pattern `2NNN` (R102). -/
  | call (addr : Addr12)
  /-- `SE Vx,kk`, pattern `3XKK` (R111). -/
  | seImm (x : Reg) (kk : Byte)
  /-- `SNE Vx,kk`, pattern `4XKK` (R112). -/
  | sneImm (x : Reg) (kk : Byte)
  /-- `SE Vx,Vy`, pattern `5XY0` (R113). -/
  | seReg (x y : Reg)
  /-- `LD Vx,kk`, pattern `6XKK` (R120). -/
  | ldImm (x : Reg) (kk : Byte)
  /-- `ADD Vx,kk`, pattern `7XKK` (R121). -/
  | addImm (x : Reg) (kk : Byte)
  /-- `LD Vx,Vy`, pattern `8XY0` (R122). -/
  | ldReg (x y : Reg)
  /-- `OR Vx,Vy`, pattern `8XY1` (R123). -/
  | orReg (x y : Reg)
  /-- `AND Vx,Vy`, pattern `8XY2` (R124). -/
  | andReg (x y : Reg)
  /-- `XOR Vx,Vy`, pattern `8XY3` (R125). -/
  | xorReg (x y : Reg)
  /-- `ADD Vx,Vy`, pattern `8XY4` (R126). -/
  | addReg (x y : Reg)
  /-- `SUB Vx,Vy`, pattern `8XY5` (R127). -/
  | sub (x y : Reg)
  /-- `SHR Vx`, pattern `8XY6`, `y` ignored (R128). -/
  | shr (x y : Reg)
  /-- `SUBN Vx,Vy`, pattern `8XY7` (R129). -/
  | subn (x y : Reg)
  /-- `SHL Vx`, pattern `8XYE`, `y` ignored (R130). -/
  | shl (x y : Reg)
  /-- `SNE Vx,Vy`, pattern `9XY0` (R114). -/
  | sneReg (x y : Reg)
  /-- `LD I,addr`, pattern `ANNN` (R140). -/
  | ldI (addr : Addr12)
  /-- `JP V0,addr`, pattern `BNNN` (R105). -/
  | jpV0 (addr : Addr12)
  /-- `RND Vx,kk`, pattern `CXKK` (R141). -/
  | rnd (x : Reg) (kk : Byte)
  /-- `DRW Vx,Vy,n`, pattern `DXYN` (R151). -/
  | drw (x y : Reg) (n : Nibble)
  /-- `SKP Vx`, pattern `EX9E` (R160). -/
  | skp (x : Reg)
  /-- `SKNP Vx`, pattern `EXA1` (R161). -/
  | sknp (x : Reg)
  /-- `LD Vx,DT`, pattern `FX07` (R163). -/
  | ldVxDt (x : Reg)
  /-- `LD DT,Vx`, pattern `FX15` (R164). -/
  | ldDtVx (x : Reg)
  /-- `LD ST,Vx`, pattern `FX18` (R165). -/
  | ldStVx (x : Reg)
  /-- `ADD I,Vx`, pattern `FX1E` (R143). -/
  | addI (x : Reg)
  /-- `FX0A`, the unimplemented blocking key wait (R170). -/
  | fx0a (x : Reg)
  /-- `FX29`, the unimplemented sprite-font address (R171). -/
  | fx29 (x : Reg)
  /-- `FX33`, the unimplemented BCD decomposition (R172). -/
  | fx33 (x : Reg)
  /-- `FX55`, the unimplemented register block store (R173). -/
  | fx55 (x : Reg)
  /-- `FX65`, the unimplemented register block load (R174). -/
  | fx65 (x : Reg)
  deriving DecidableEq, Repr

end Sys2Proof
end

