-- ==== Sys2Proof/WellFormed.lean ====
section
/-! DEFINITION. Which terms of `Instr` are instructions of the machine: the types bound every field, and the one
further check is that `SYS` excludes the three fixed words of class 0 (rule R76, spec/30_encoding.md). -/

namespace Sys2Proof

/-- True of exactly the terms that some word stands for. -/
def Instr.wellFormed : Instr → Bool
  | .sys addr => addr != 0x000#12 && addr != 0x0E0#12 && addr != 0x0EE#12
  | .halt => true
  | .cls => true
  | .ret => true
  | .jp _ => true
  | .call _ => true
  | .seImm _ _ => true
  | .sneImm _ _ => true
  | .seReg _ _ => true
  | .ldImm _ _ => true
  | .addImm _ _ => true
  | .ldReg _ _ => true
  | .orReg _ _ => true
  | .andReg _ _ => true
  | .xorReg _ _ => true
  | .addReg _ _ => true
  | .sub _ _ => true
  | .shr _ _ => true
  | .subn _ _ => true
  | .shl _ _ => true
  | .sneReg _ _ => true
  | .ldI _ => true
  | .jpV0 _ => true
  | .rnd _ _ => true
  | .drw _ _ _ => true
  | .skp _ => true
  | .sknp _ => true
  | .ldVxDt _ => true
  | .ldDtVx _ => true
  | .ldStVx _ => true
  | .addI _ => true
  | .fx0a _ => true
  | .fx29 _ => true
  | .fx33 _ => true
  | .fx55 _ => true
  | .fx65 _ => true

end Sys2Proof
end

