-- ==== Sys2Proof/Decode.lean ====
section
/-! DEFINITION. The decoder and the encoder, both written from rules R70 to R81 of spec/30_encoding.md: the fields
of a word, the opcode map of R78, and the word an instruction stands for. -/

namespace Sys2Proof

/-- The word of two consecutive memory bytes, big-endian, `hi * 256 + lo`: the byte at the lower address is
`word[15:8]` (R53). -/
def wordOfBytes (hi lo : Byte) : Word := BitVec.ofNat 16 (hi.toNat * 256 + lo.toNat)

/-- `word[15:8]`, the byte stored at the lower address (R53). -/
def hiByte (w : Word) : Byte := w.extractLsb' 8 8

/-- `word[7:0]`, the byte stored at the higher address (R53). -/
def loByte (w : Word) : Byte := w.extractLsb' 0 8

/-- The class `c = word[15:12]` (R71). -/
def fieldC (w : Word) : Nibble := w.extractLsb' 12 4

/-- The field `x = word[11:8]` (R71). -/
def fieldX (w : Word) : Nibble := w.extractLsb' 8 4

/-- The field `y = word[7:4]` (R71). -/
def fieldY (w : Word) : Nibble := w.extractLsb' 4 4

/-- The field `n = word[3:0]` (R71). -/
def fieldN (w : Word) : Nibble := w.extractLsb' 0 4

/-- The derived field `kk = word[7:0]` (R72). -/
def fieldKK (w : Word) : Byte := w.extractLsb' 0 8

/-- The derived field `addr = word[11:0]` (R72). -/
def fieldAddr (w : Word) : Addr12 := w.extractLsb' 0 12

/-- A register field is the register's index as it stands (R75). -/
def regOfNibble (b : Nibble) : Reg := ⟨b.toNat, b.isLt⟩

/-- Class 8 is selected by `n` as well (R77). -/
def decodeClass8 (x y : Reg) (n : Nibble) : Option Instr :=
  match n.toNat with
  | 0x0 => some (.ldReg x y)
  | 0x1 => some (.orReg x y)
  | 0x2 => some (.andReg x y)
  | 0x3 => some (.xorReg x y)
  | 0x4 => some (.addReg x y)
  | 0x5 => some (.sub x y)
  | 0x6 => some (.shr x y)
  | 0x7 => some (.subn x y)
  | 0xE => some (.shl x y)
  | _ => none

/-- Class F is selected by `kk` as well (R77). -/
def decodeClassF (x : Reg) (kk : Byte) : Option Instr :=
  match kk.toNat with
  | 0x07 => some (.ldVxDt x)
  | 0x0A => some (.fx0a x)
  | 0x15 => some (.ldDtVx x)
  | 0x18 => some (.ldStVx x)
  | 0x1E => some (.addI x)
  | 0x29 => some (.fx29 x)
  | 0x33 => some (.fx33 x)
  | 0x55 => some (.fx55 x)
  | 0x65 => some (.fx65 x)
  | _ => none

/-- Class 0: the three fixed words first, every other word is `SYS` (R76). -/
def decodeClass0 (addr : Addr12) : Instr :=
  match addr.toNat with
  | 0x000 => .halt
  | 0x0E0 => .cls
  | 0x0EE => .ret
  | _ => .sys addr

/-- The row of rule R78 that a word selects, with its operands; `none` for the words of rule R79. A pure function
of the word (R73). -/
def decodeWord (w : Word) : Option Instr :=
  let x := regOfNibble (fieldX w)
  let y := regOfNibble (fieldY w)
  let kk := fieldKK w
  let addr := fieldAddr w
  match (fieldC w).toNat with
  | 0x0 => some (decodeClass0 addr)
  | 0x1 => some (.jp addr)
  | 0x2 => some (.call addr)
  | 0x3 => some (.seImm x kk)
  | 0x4 => some (.sneImm x kk)
  | 0x5 => if fieldN w = 0#4 then some (.seReg x y) else none
  | 0x6 => some (.ldImm x kk)
  | 0x7 => some (.addImm x kk)
  | 0x8 => decodeClass8 x y (fieldN w)
  | 0x9 => if fieldN w = 0#4 then some (.sneReg x y) else none
  | 0xA => some (.ldI addr)
  | 0xB => some (.jpV0 addr)
  | 0xC => some (.rnd x kk)
  | 0xD => some (.drw x y (fieldN w))
  | 0xE => if kk = 0x9E#8 then some (.skp x) else if kk = 0xA1#8 then some (.sknp x) else none
  | _ => decodeClassF x kk

/-- What decoding a list of bytes answers. -/
inductive DecodeResult where
  /-- The first two bytes are an instruction; the rest follows. -/
  | instr (i : Instr) (rest : List Byte)
  /-- Fewer than the two bytes every instruction has (R70). -/
  | truncated
  /-- The word matches no row of R78 (R79): dispatching it raises `DecodeError`. -/
  | illegal (word : Word)
  deriving DecidableEq, Repr

/-- Decoding of any bytes, the first at the lowest address (R53, R70). -/
def decodeBytes : List Byte → DecodeResult
  | [] => .truncated
  | [_] => .truncated
  | hi :: lo :: rest =>
    match decodeWord (wordOfBytes hi lo) with
    | some i => .instr i rest
    | none => .illegal (wordOfBytes hi lo)

/-- The instruction the decoder reads from a table word: the `nbits` low bits of `w`, the bits above them zero, laid
out big-endian. -/
def decodeTableWord (nbits w : Nat) : Option Instr :=
  let word := BitVec.ofNat 16 (w % 2 ^ nbits)
  match decodeBytes [hiByte word, loByte word] with
  | .instr i _ => some i
  | .truncated => none
  | .illegal _ => none

/-- The formats `XY` and `XYN` of rule R74. -/
def wordXYN (c : Nibble) (x y : Reg) (n : Nibble) : Word :=
  BitVec.ofNat 16 (c.toNat * 4096 + x.val * 256 + y.val * 16 + n.toNat)

/-- The formats `XK` and `X` of rule R74. -/
def wordXK (c : Nibble) (x : Reg) (kk : Byte) : Word :=
  BitVec.ofNat 16 (c.toNat * 4096 + x.val * 256 + kk.toNat)

/-- The formats `A` and `FIXED` of rule R74. -/
def wordA (c : Nibble) (addr : Addr12) : Word := BitVec.ofNat 16 (c.toNat * 4096 + addr.toNat)

/-- The word of an instruction, row by row from the table of rule R78. -/
def encode : Instr → Word
  | .halt => wordA 0x0#4 0x000#12
  | .cls => wordA 0x0#4 0x0E0#12
  | .ret => wordA 0x0#4 0x0EE#12
  | .sys addr => wordA 0x0#4 addr
  | .jp addr => wordA 0x1#4 addr
  | .call addr => wordA 0x2#4 addr
  | .seImm x kk => wordXK 0x3#4 x kk
  | .sneImm x kk => wordXK 0x4#4 x kk
  | .seReg x y => wordXYN 0x5#4 x y 0x0#4
  | .ldImm x kk => wordXK 0x6#4 x kk
  | .addImm x kk => wordXK 0x7#4 x kk
  | .ldReg x y => wordXYN 0x8#4 x y 0x0#4
  | .orReg x y => wordXYN 0x8#4 x y 0x1#4
  | .andReg x y => wordXYN 0x8#4 x y 0x2#4
  | .xorReg x y => wordXYN 0x8#4 x y 0x3#4
  | .addReg x y => wordXYN 0x8#4 x y 0x4#4
  | .sub x y => wordXYN 0x8#4 x y 0x5#4
  | .shr x y => wordXYN 0x8#4 x y 0x6#4
  | .subn x y => wordXYN 0x8#4 x y 0x7#4
  | .shl x y => wordXYN 0x8#4 x y 0xE#4
  | .sneReg x y => wordXYN 0x9#4 x y 0x0#4
  | .ldI addr => wordA 0xA#4 addr
  | .jpV0 addr => wordA 0xB#4 addr
  | .rnd x kk => wordXK 0xC#4 x kk
  | .drw x y n => wordXYN 0xD#4 x y n
  | .skp x => wordXK 0xE#4 x 0x9E#8
  | .sknp x => wordXK 0xE#4 x 0xA1#8
  | .ldVxDt x => wordXK 0xF#4 x 0x07#8
  | .ldDtVx x => wordXK 0xF#4 x 0x15#8
  | .ldStVx x => wordXK 0xF#4 x 0x18#8
  | .addI x => wordXK 0xF#4 x 0x1E#8
  | .fx0a x => wordXK 0xF#4 x 0x0A#8
  | .fx29 x => wordXK 0xF#4 x 0x29#8
  | .fx33 x => wordXK 0xF#4 x 0x33#8
  | .fx55 x => wordXK 0xF#4 x 0x55#8
  | .fx65 x => wordXK 0xF#4 x 0x65#8

end Sys2Proof
end

