-- ==== Sys2Proof/Config.lean ====
section
/-! DEFINITION. What an implementation fixes (the parameters of spec/00_scope.md section 3) and the free values. -/

namespace Sys2Proof.Config

/-- The two rules for the collision flag of `DRW` (rule R10, spec/00_scope.md; both in full in R152). -/
inductive CollisionRule where
  /-- The flag is 1 iff a cell was on and was turned off. -/
  | standard
  /-- The repository's rule: the flag is 1 iff some sprite bit equals the cell it lies over. -/
  | literal
  deriving DecidableEq, Repr

/-- The machine's open parameters. They are arguments of the model: a launch chooses them and no instruction changes
them (log entry 1). -/
structure Params where
  /-- `MEM_SIZE`, the number of bytes of memory (R5). -/
  memSize : Nat
  /-- `STACK_DEPTH`, the number of call-stack slots (R6). -/
  stackDepth : Nat
  /-- `COLLISION_RULE` (R10). -/
  collisionRule : CollisionRule
  deriving DecidableEq, Repr

/-- The values the spec takes: R5, R6 (16 is from general knowledge, log entry 2) and R10. -/
def reference : Params := { memSize := 4096, stackDepth := 16, collisionRule := .standard }

/-- The least `MEM_SIZE` (R5). -/
def minMemSize : Nat := 4096

/-- The greatest `MEM_SIZE`: it keeps `PC` from wrapping (R5, conflict C15). -/
def maxMemSize : Nat := 65532

/-- FREE VALUE (U20, spec/93_implementation_defined.md; log entry 7): the random byte of the draw with this index,
where the launch supplied none. Nothing constrains it. -/
opaque freeRandomByte : Nat → Byte

end Sys2Proof.Config
end

