-- ==== Sys2Proof/Machine/State.lean ====
section
/-! DEFINITION. The state of the machine (spec/10_state.md), the reasons a step can stop, and the state after
reset (rule R37). -/

namespace Sys2Proof.Machine

open Sys2Proof.Config (CollisionRule)

/-- `MODE`, the run state (rule R33, spec/10_state.md). -/
inductive Mode where
  | running
  | halted
  | faulted
  deriving DecidableEq, Repr

/-- The seven fault causes of the machine (rule R182, spec/60_exceptions.md). -/
inductive FaultCause where
  | decodeError
  | sysUnsupported
  | unimplemented
  | stackOverflow
  | stackUnderflow
  | memoryBounds
  | keyIndex
  deriving DecidableEq, Repr

/-- `MEM`: the bytes that differ from what an unlisted address reads as, by strictly rising address (R50). -/
abbrev Memory := List Host.Cell

/-- `DISP[px][py]`: 64 columns of 32 cells, `true` for on (R57). -/
abbrev Display := Vector (Vector Bool 32) 64

/-- Every piece of state the spec gives the machine (R20 to R35), the parameters a launch fixes, and the supply of
random bytes. -/
structure State where
  /-- `V[0..15]`; `V[15]` is `VF` (R20, R22). -/
  v : Vector Byte 16
  /-- `PC` (R24). -/
  pc : Word
  /-- `I` (R28). -/
  i : Word
  /-- `SP`, the next free slot index (R29). -/
  sp : Nat
  /-- `STACK`; its length is `STACK_DEPTH` (R29, R6). -/
  stack : List Word
  /-- `DT` (R30). -/
  dt : Byte
  /-- `ST` (R31). -/
  st : Byte
  /-- `KEY`, driven by the host (R32). -/
  keys : Vector Bool 16
  /-- `MODE` (R33). -/
  mode : Mode
  /-- `FAULT_CAUSE`, a code of R182 (R33). -/
  faultCause : BitVec 3
  /-- `FAULT_WORD` (R33, R181). -/
  faultWord : Word
  /-- `FAULT_ADDR` (R33, R181). -/
  faultAddr : Word
  /-- `MEM` (R34, R50). -/
  mem : Memory
  /-- `DISP` (R35, R57). -/
  disp : Display
  /-- `MEM_SIZE`, fixed at launch (R5). -/
  memSize : Nat
  /-- `COLLISION_RULE`, fixed at launch (R10). -/
  collisionRule : CollisionRule
  /-- The model's own: the random bytes supplied with the launch and not yet drawn (R142). -/
  draws : List Byte
  /-- The model's own: the index of the next free random byte (log entry 7). -/
  drawIndex : Nat
  deriving DecidableEq, Repr

/-- Why the machine takes no step at all. The seven faults of the spec are NOT here: raising one is a next state
with `MODE = Faulted` (R181). -/
inductive Fault where
  /-- Raised by `step` alone, when `MODE = Halted`: no step is enabled (R33, R220, U24). Safe: the spec has no step
  there. -/
  | stuckHalted
  /-- Raised by `step` alone, when `MODE = Faulted`: no step is enabled (R33, R186, R220, U24). Safe: the spec has
  no step there. -/
  | stuckFaulted
  /-- Raised by the meanings of `CALL` and `RET` in a state with `SP > STACK_DEPTH`, which R29 rules out and no run
  reaches. Safe: it only stops where the machine cannot be (log entry 9). -/
  | stackPointerOutOfRange
  deriving DecidableEq, Repr

/-- What the model does not accept. -/
inductive Refusal where
  /-- Raised by `exec` for an instruction without a meaning; no arm does. Safe. -/
  | notModelled (mnemonic : String)
  /-- Raised by `launch`: `MEM_SIZE` outside 4096 .. 65532 (R5, U2). Safe. -/
  | memSizeOutOfRange
  /-- Raised by `launch`: a `STACK_DEPTH` of 0 (R6, U3). Safe. -/
  | noStackSlots
  /-- Raised by `launch`: an image longer than `MEM_SIZE` (R211, U28). Safe. -/
  | imageTooLong
  deriving DecidableEq, Repr

/-- What a meaning and a step answer. -/
abbrev Result := Host.Outcome State Fault Refusal

/-- The machine right after reset (R37, R210), with the reference parameters, nothing listed in memory (log entry
4), a blank display (log entry 6), every key released (log entry 5), a zero fault record (log entry 3) and no
random byte supplied (log entry 7). -/
def State.reset : State where
  v := Vector.replicate 16 0#8
  pc := 0#16
  i := 0#16
  sp := 0
  stack := List.replicate Config.reference.stackDepth 0#16
  dt := 0#8
  st := 0#8
  keys := Vector.replicate 16 false
  mode := .running
  faultCause := 0#3
  faultWord := 0#16
  faultAddr := 0#16
  mem := []
  disp := Vector.replicate 64 (Vector.replicate 32 false)
  memSize := Config.reference.memSize
  collisionRule := Config.reference.collisionRule
  draws := []
  drawIndex := 0

end Sys2Proof.Machine
end

