-- ==== Sys2Proof/Machine/Ops.lean ====
section
/-! DEFINITION. The named operations over the state: memory, display, registers, stack, timers, keys and the
random byte (spec/10_state.md, spec/20_memory.md), fetching a word, and raising a fault (spec/60_exceptions.md). -/

namespace Sys2Proof.Machine

/-- What an address of `MEM` reads as when nothing is listed for it: the zero fill R211 recommends (log entry 4). -/
def Memory.unlisted : Byte := 0#8

/-- The byte at address `a`, for an address inside memory (R50). -/
def Memory.read : Memory → Nat → Byte
  | [], _ => Memory.unlisted
  | (k, b) :: rest, a => if a = k then b else Memory.read rest a

/-- `m` with byte `b` at address `a`, in canonical form again. -/
def Memory.write : Memory → Nat → Byte → Memory
  | [], a, b => if b = Memory.unlisted then [] else [(a, b)]
  | (k, c) :: rest, a, b =>
    if a < k then
      if b = Memory.unlisted then (k, c) :: rest else (a, b) :: (k, c) :: rest
    else if a = k then
      if b = Memory.unlisted then rest else (a, b) :: rest
    else (k, c) :: Memory.write rest a b

/-- The canonical form: strictly rising addresses, and no entry equal to what an unlisted address reads as. -/
def Memory.wf : Memory → Bool
  | [] => true
  | (k, b) :: rest => b != Memory.unlisted && rest.all (fun c => decide (k < c.1)) && Memory.wf rest

/-- The bytes of an image at rising addresses from `a` on (R211). -/
def Memory.load (m : Memory) (a : Nat) : List Byte → Memory
  | [] => m
  | b :: rest => Memory.load (Memory.write m a b) (a + 1) rest

/-- `MemRead(a, 1)` (R52): `none` where it raises `MemoryBounds`. -/
def State.memRead (s : State) (a : Nat) : Option Byte :=
  if a < s.memSize then some (Memory.read s.mem a) else none

/-- `MemWrite(a, 1, b)` (R55): `none` where it raises `MemoryBounds`. No instruction calls it. -/
def State.memWrite (s : State) (a : Nat) (b : Byte) : Option State :=
  if a < s.memSize then some { s with mem := Memory.write s.mem a b } else none

/-- `MemRead(PC, 2)` of the fetch (R53): big-endian, `none` where `PC + 1 >= MEM_SIZE` (R26); both bytes are checked
before either is read. -/
def State.fetch (s : State) : Option Word :=
  if s.pc.toNat + 1 < s.memSize then
    some (wordOfBytes (Memory.read s.mem s.pc.toNat) (Memory.read s.mem (s.pc.toNat + 1)))
  else none

/-- `DispRead(px, py)` (R58). -/
def Display.read (d : Display) (px : Fin 64) (py : Fin 32) : Bool := d[px.val][py.val]

/-- `DispWrite(px, py, b)` (R59). -/
def Display.write (d : Display) (px : Fin 64) (py : Fin 32) (b : Bool) : Display :=
  d.set px.val (d[px.val].set py.val b)

/-- Every cell off: what `DispClear()` leaves (R60). -/
def Display.blank : Display := Vector.replicate 64 (Vector.replicate 32 false)

/-- `V[r]` (R20). -/
def State.readV (s : State) (r : Reg) : Byte := s.v[r.val]

/-- `V[r] <- b` (R20). -/
def State.writeV (s : State) (r : Reg) (b : Byte) : State := { s with v := s.v.set r.val b }

/-- A flag as the byte 0 or 1 (R22). -/
def flagByte (f : Bool) : Byte := if f then 1#8 else 0#8

/-- The last stage of a flag writer: the result to `V[x]`, then the flag to `V[15]`, so that with `x = 15` the flag
remains (R131). -/
def State.writeResultFlag (s : State) (x : Reg) (r : Byte × Bool) : State :=
  (s.writeV x r.1).writeV regVF (flagByte r.2)

/-- `PC <- a` (R24). -/
def State.setPc (s : State) (a : Word) : State := { s with pc := a }

/-- `Skip()`: `PC <- (PC + 2) mod 2^16` (R110). -/
def State.skip (s : State) : State := s.setPc (s.pc + 2#16)

/-- The fetch increment, `PC <- A + 2` (R24, R220). -/
def State.advance (s : State) : State := s.setPc (s.pc + 2#16)

/-- `I <- a` (R28). -/
def State.setI (s : State) (a : Word) : State := { s with i := a }

/-- `DT <- b` (R30). -/
def State.setDt (s : State) (b : Byte) : State := { s with dt := b }

/-- `ST <- b` (R31). -/
def State.setSt (s : State) (b : Byte) : State := { s with st := b }

/-- `DISP` replaced as a whole (R57). -/
def State.setDisp (s : State) (d : Display) : State := { s with disp := d }

/-- `KeyRead(k)` (R32). -/
def State.keyRead (s : State) (k : Fin 16) : Bool := s.keys[k.val]

/-- The host's `KEY[k] <- b` (R224). -/
def State.setKey (s : State) (k : Fin 16) (b : Bool) : State := { s with keys := s.keys.set k.val b }

/-- `STACK_DEPTH`, the number of slots (R6). -/
def State.stackDepth (s : State) : Nat := s.stack.length

/-- `STACK[SP] <- a`, then `SP <- SP + 1` (R102). -/
def State.push (s : State) (a : Word) : State := { s with stack := s.stack.set s.sp a, sp := s.sp + 1 }

/-- `STACK[SP - 1]`, for `SP > 0` (R104). -/
def State.topSlot (s : State) : Option Word := s.stack[s.sp - 1]?

/-- `SP <- SP - 1`; the popped slot keeps its value (R29, R104). -/
def State.pop (s : State) : State := { s with sp := s.sp - 1 }

/-- `MODE <- Halted` (R100). -/
def State.halt (s : State) : State := { s with mode := .halted }

/-- The codes of R182. -/
def FaultCause.code : FaultCause → BitVec 3
  | .decodeError => 1#3
  | .sysUnsupported => 2#3
  | .unimplemented => 3#3
  | .stackOverflow => 4#3
  | .stackUnderflow => 5#3
  | .memoryBounds => 6#3
  | .keyIndex => 7#3

/-- Fault entry (R181): the record is written, the mode becomes Faulted, nothing else changes. There is no return
from it (R187). -/
def State.raise (s : State) (c : FaultCause) (word addr : Word) : State :=
  { s with mode := .faulted, faultCause := c.code, faultWord := word, faultAddr := addr }

/-- `raise` while an instruction executes: `FAULT_WORD` is the instruction's word, `FAULT_ADDR` is `PC - 2` (R181). -/
def State.raiseIn (s : State) (c : FaultCause) (ins : Instr) : State :=
  s.raise c (encode ins) (s.pc - 2#16)

/-- `RandomByte()` and the state after the draw (R142): the next supplied byte, else a free value (log entry 7). -/
def State.randomByte (s : State) : Byte × State :=
  match s.draws with
  | b :: rest => (b, { s with draws := rest })
  | [] => (Config.freeRandomByte s.drawIndex, { s with drawIndex := s.drawIndex + 1 })

/-- One timer down by one, stopping at zero (R199). -/
def tickTimer (b : Byte) : Byte := if b = 0#8 then 0#8 else b - 1#8

/-- `TimerTick()`, a move of the host (R199). -/
def State.timerTick (s : State) : State := { s with dt := tickTimer s.dt, st := tickTimer s.st }

end Sys2Proof.Machine
end

