-- ==== Sys2Proof/Machine/Operands.lean ====
section
/-! DEFINITION. The operand forms: immediates (rule R75, spec/30_encoding.md), a key selected by a register's value
(R162), the sprite in memory (R151) and its cells (R152). -/

namespace Sys2Proof.Machine

/-- `addr` zero-extended to 16 bits (R75). -/
def zextAddr (a : Addr12) : Word := a.setWidth 16

/-- A byte zero-extended to 16 bits (R143). -/
def zextByte (b : Byte) : Word := b.setWidth 16

/-- The key a register's value selects: `none` above 15, where `KeyIndex` is raised (R162). -/
def keyOfByte (b : Byte) : Option (Fin 16) :=
  if h : b.toNat < 16 then some ⟨b.toNat, h⟩ else none

/-- The `n` sprite bytes at `base`: `none` where `n > 0` and `base + n - 1 >= MEM_SIZE`; the whole range is checked
before any byte is read (R151). -/
def State.spriteRows (s : State) (base n : Nat) : Option (List Byte) :=
  if 0 < n ∧ s.memSize ≤ base + n - 1 then none
  else some ((List.range n).map fun r => Memory.read s.mem (base + r))

/-- The sprite bit of column `c`: `(byte >> (7 - c)) & 1` (R152). -/
def spriteBit (b : Byte) (c : Nat) : Bool := b.getLsbD (7 - c)

/-- `(x_start + c) mod 64` (R152). -/
def spriteColumn (xStart c : Nat) : Fin 64 := Fin.ofNat 64 (xStart + c)

/-- `(y_start + r) mod 32` (R152). -/
def spriteLine (yStart r : Nat) : Fin 32 := Fin.ofNat 32 (yStart + r)

end Sys2Proof.Machine
end

