-- ==== Sys2Proof/Machine/Flags.lean ====
section
/-! DEFINITION. The flag computations: carry and no-borrow (rule R132, spec/42_alu.md), the bit shifted out (R128,
R130), and the collision of one sprite bit (R152, spec/44_display.md). -/

namespace Sys2Proof.Machine

open Sys2Proof.Config (CollisionRule)

/-- `overflowing_add8` (R132): the sum modulo 256, and the carry out of bit 7. -/
def overflowingAdd8 (a b : Byte) : Byte × Bool := (a + b, decide (a.toNat + b.toNat > 255))

/-- `overflowing_sub8` (R132): the difference modulo 256, and 1 when no borrow occurred. -/
def overflowingSub8 (a b : Byte) : Byte × Bool := (a - b, decide (b.toNat ≤ a.toNat))

/-- The right shift by one and the bit shifted out, bit 0 (R128). -/
def shiftRight1 (a : Byte) : Byte × Bool := (a >>> 1, a.getLsbD 0)

/-- The left shift by one, truncated to 8 bits, and the bit shifted out, bit 7 (R130). -/
def shiftLeft1 (a : Byte) : Byte × Bool := (a <<< 1, a.getLsbD 7)

/-- Whether a sprite bit over a cell in state `cur` sets the collision flag (R152). -/
def collides (rule : CollisionRule) (bit cur : Bool) : Bool :=
  match rule with
  | .standard => bit && cur
  | .literal => bit == cur

end Sys2Proof.Machine
end

