-- ==== Sys2Proof/Machine/Alu.lean ====
section
/-! DEFINITION. The meanings of the register loads and the ALU instructions (spec/42_alu.md). Operands are read
first; a flag writer writes the result, then the flag (R131). -/

namespace Sys2Proof.Machine

/-- `LD Vx,kk` (R120). -/
def execLdImm (x : Reg) (kk : Byte) (s : State) : Result := .next (s.writeV x kk)

/-- `ADD Vx,kk`, which writes `VF` (R121). -/
def execAddImm (x : Reg) (kk : Byte) (s : State) : Result :=
  .next (s.writeResultFlag x (overflowingAdd8 (s.readV x) kk))

/-- `LD Vx,Vy` (R122). -/
def execLdReg (x y : Reg) (s : State) : Result := .next (s.writeV x (s.readV y))

/-- `OR Vx,Vy`, no flag (R123). -/
def execOrReg (x y : Reg) (s : State) : Result := .next (s.writeV x (s.readV x ||| s.readV y))

/-- `AND Vx,Vy`, no flag (R124). -/
def execAndReg (x y : Reg) (s : State) : Result := .next (s.writeV x (s.readV x &&& s.readV y))

/-- `XOR Vx,Vy`, no flag (R125). -/
def execXorReg (x y : Reg) (s : State) : Result := .next (s.writeV x (s.readV x ^^^ s.readV y))

/-- `ADD Vx,Vy` (R126). -/
def execAddReg (x y : Reg) (s : State) : Result :=
  .next (s.writeResultFlag x (overflowingAdd8 (s.readV x) (s.readV y)))

/-- `SUB Vx,Vy`: `V[x] - V[y]` (R127). -/
def execSub (x y : Reg) (s : State) : Result :=
  .next (s.writeResultFlag x (overflowingSub8 (s.readV x) (s.readV y)))

/-- `SHR Vx`: in place, `y` neither read nor written (R128, R81). -/
def execShr (x _y : Reg) (s : State) : Result := .next (s.writeResultFlag x (shiftRight1 (s.readV x)))

/-- `SUBN Vx,Vy`: `V[y] - V[x]` into `V[x]` (R129). -/
def execSubn (x y : Reg) (s : State) : Result :=
  .next (s.writeResultFlag x (overflowingSub8 (s.readV y) (s.readV x)))

/-- `SHL Vx`: in place, `y` neither read nor written (R130, R81). -/
def execShl (x _y : Reg) (s : State) : Result := .next (s.writeResultFlag x (shiftLeft1 (s.readV x)))

end Sys2Proof.Machine
end

