-- ==== Sys2Proof/Machine/ControlFlow.lean ====
section
/-! DEFINITION. The meanings of HALT, SYS, JP, CALL, RET and JP V0 (spec/40_control_flow.md). On entry `PC` holds
the instruction's address plus 2 (R24). -/

namespace Sys2Proof.Machine

/-- `HALT`: `MODE <- Halted`; `PC` keeps the incremented value (R100). -/
def execHalt (s : State) : Result := .next s.halt

/-- `RET`: `StackUnderflow` when the stack is empty, else pop `PC` (R104). -/
def execRet (s : State) : Result :=
  if s.sp = 0 then .next (s.raiseIn .stackUnderflow .ret)
  else match s.topSlot with
    | some a => .next (s.pop.setPc a)
    | none => .fault .stackPointerOutOfRange

/-- `SYS addr`: always `SysUnsupported` (R103). -/
def execSys (addr : Addr12) (s : State) : Result := .next (s.raiseIn .sysUnsupported (.sys addr))

/-- `JP addr`: `PC <- addr` (R101). -/
def execJp (addr : Addr12) (s : State) : Result := .next (s.setPc (zextAddr addr))

/-- `CALL addr`: `StackOverflow` when the stack is full, else push `PC` and jump (R102). -/
def execCall (addr : Addr12) (s : State) : Result :=
  if s.sp = s.stackDepth then .next (s.raiseIn .stackOverflow (.call addr))
  else if s.sp < s.stackDepth then .next ((s.push s.pc).setPc (zextAddr addr))
  else .fault .stackPointerOutOfRange

/-- `JP V0,addr`: `PC <- addr + V[0]`, not reduced to 12 bits (R105). -/
def execJpV0 (addr : Addr12) (s : State) : Result :=
  .next (s.setPc (zextAddr addr + zextByte (s.readV 0)))

end Sys2Proof.Machine
end

