-- ==== Sys2Proof/Machine/Display.lean ====
section
/-! DEFINITION. The meanings of CLS and DRW, with the XOR blit and the collision flag (spec/44_display.md). -/

namespace Sys2Proof.Machine

open Sys2Proof.Config (CollisionRule)

/-- One cell of the blit (R152): the cell is read, the flag is raised if the rule says so, and a 1 bit flips it. -/
def blitCell (rule : CollisionRule) (px : Fin 64) (py : Fin 32) (bit : Bool) (acc : Display × Bool) :
    Display × Bool :=
  let cur := Display.read acc.1 px py
  (if bit then Display.write acc.1 px py (!cur) else acc.1, acc.2 || collides rule bit cur)

/-- One sprite byte, its columns 0 to 7 from the left (R152). -/
def blitRow (rule : CollisionRule) (xStart : Nat) (py : Fin 32) (b : Byte) (acc : Display × Bool) :
    Display × Bool :=
  (List.range 8).foldl (fun a c => blitCell rule (spriteColumn xStart c) py (spriteBit b c) a) acc

/-- The sprite's rows from row `r` on (R152). -/
def blitRows (rule : CollisionRule) (xStart yStart : Nat) : Nat → List Byte → Display × Bool → Display × Bool
  | _, [], acc => acc
  | r, b :: rest, acc =>
    blitRows rule xStart yStart (r + 1) rest (blitRow rule xStart (spriteLine yStart r) b acc)

/-- `Blit` (R152): the display after the sprite, and the collision flag. -/
def blit (rule : CollisionRule) (xStart yStart : Nat) (rows : List Byte) (d : Display) : Display × Bool :=
  blitRows rule xStart yStart 0 rows (d, false)

/-- `CLS`: `DispClear()` (R150). -/
def execCls (s : State) : Result := .next (s.setDisp Display.blank)

/-- `DRW Vx,Vy,n`: `MemoryBounds` if any sprite byte lies outside memory, else the blit, then the flag to `VF` (R151). -/
def execDrw (x y : Reg) (n : Nibble) (s : State) : Result :=
  match s.spriteRows s.i.toNat n.toNat with
  | none => .next (s.raiseIn .memoryBounds (.drw x y n))
  | some rows =>
    let r := blit s.collisionRule (s.readV x).toNat (s.readV y).toNat rows s.disp
    .next ((s.setDisp r.1).writeV regVF (flagByte r.2))

end Sys2Proof.Machine
end

