-- ==== Sys2Proof/Machine/IndexRandom.lean ====
section
/-! DEFINITION. The meanings of LD I, ADD I and RND (spec/43_index_random.md). -/

namespace Sys2Proof.Machine

/-- `LD I,addr` (R140). -/
def execLdI (addr : Addr12) (s : State) : Result := .next (s.setI (zextAddr addr))

/-- `RND Vx,kk`: one draw, masked (R141). -/
def execRnd (x : Reg) (kk : Byte) (s : State) : Result :=
  .next (s.randomByte.2.writeV x (s.randomByte.1 &&& kk))

/-- `ADD I,Vx`: modulo 2^16, no flag (R143). -/
def execAddI (x : Reg) (s : State) : Result := .next (s.setI (s.i + zextByte (s.readV x)))

end Sys2Proof.Machine
end

