-- ==== Sys2Proof/Machine/Skips.lean ====
section
/-! DEFINITION. The meanings of the four compare-and-skip instructions (spec/41_skips.md). -/

namespace Sys2Proof.Machine

/-- `if c: Skip()` (R110). -/
def skipIf (c : Bool) (s : State) : Result := .next (if c then s.skip else s)

/-- `SE Vx,kk` (R111). -/
def execSeImm (x : Reg) (kk : Byte) (s : State) : Result := skipIf (s.readV x == kk) s

/-- `SNE Vx,kk` (R112). -/
def execSneImm (x : Reg) (kk : Byte) (s : State) : Result := skipIf (s.readV x != kk) s

/-- `SE Vx,Vy` (R113). -/
def execSeReg (x y : Reg) (s : State) : Result := skipIf (s.readV x == s.readV y) s

/-- `SNE Vx,Vy` (R114). -/
def execSneReg (x y : Reg) (s : State) : Result := skipIf (s.readV x != s.readV y) s

end Sys2Proof.Machine
end

