-- ==== Sys2Proof/Machine/KeypadTimers.lean ====
section
/-! DEFINITION. The meanings of SKP, SKNP and the three timer instructions (spec/45_keypad_timers.md). -/

namespace Sys2Proof.Machine

/-- `SKP Vx`: `KeyIndex` when `V[x] > 15`, else skip if the key is pressed (R160, R162). -/
def execSkp (x : Reg) (s : State) : Result :=
  match keyOfByte (s.readV x) with
  | none => .next (s.raiseIn .keyIndex (.skp x))
  | some k => skipIf (s.keyRead k) s

/-- `SKNP Vx`: `KeyIndex` when `V[x] > 15`, else skip if the key is not pressed (R161, R162). -/
def execSknp (x : Reg) (s : State) : Result :=
  match keyOfByte (s.readV x) with
  | none => .next (s.raiseIn .keyIndex (.sknp x))
  | some k => skipIf (!s.keyRead k) s

/-- `LD Vx,DT` (R163). -/
def execLdVxDt (x : Reg) (s : State) : Result := .next (s.writeV x s.dt)

/-- `LD DT,Vx` (R164). -/
def execLdDtVx (x : Reg) (s : State) : Result := .next (s.setDt (s.readV x))

/-- `LD ST,Vx` (R165). -/
def execLdStVx (x : Reg) (s : State) : Result := .next (s.setSt (s.readV x))

end Sys2Proof.Machine
end

