-- ==== Sys2Proof/Machine/Unimplemented.lean ====
section
/-! DEFINITION. The meanings of the five opcodes the machine names and does not implement: each raises
`Unimplemented` (spec/46_unimplemented.md). -/

namespace Sys2Proof.Machine

/-- `FX0A` (R170). -/
def execFx0a (x : Reg) (s : State) : Result := .next (s.raiseIn .unimplemented (.fx0a x))

/-- `FX29` (R171). -/
def execFx29 (x : Reg) (s : State) : Result := .next (s.raiseIn .unimplemented (.fx29 x))

/-- `FX33` (R172). -/
def execFx33 (x : Reg) (s : State) : Result := .next (s.raiseIn .unimplemented (.fx33 x))

/-- `FX55` (R173). -/
def execFx55 (x : Reg) (s : State) : Result := .next (s.raiseIn .unimplemented (.fx55 x))

/-- `FX65` (R174). -/
def execFx65 (x : Reg) (s : State) : Result := .next (s.raiseIn .unimplemented (.fx65 x))

end Sys2Proof.Machine
end

