-- ==== Sys2Proof/Machine/Step.lean ====
section
/-! DEFINITION. The step (rule R220, spec/70_reset_and_hazards.md), and placing an instruction where it fetches. -/

namespace Sys2Proof.Machine

/-- One fetch, decode and execute (R220). A fault of R182 is a next state with `MODE = Faulted`; only a machine that
is not Running has no step (R33). -/
def step (s : State) : Host.Outcome State Fault Refusal :=
  match s.mode with
  | .halted => .fault .stuckHalted
  | .faulted => .fault .stuckFaulted
  | .running =>
    match s.fetch with
    | none => .next (s.raise .memoryBounds 0#16 s.pc)
    | some w =>
      match decodeWord w with
      | none => .next (s.advance.raise .decodeError w s.pc)
      | some i => exec i s.advance

/-- `s` with a table word of `nbits` bits stored big-endian at `PC`, as a launch image would hold it (R211; log
entry 8). -/
def State.withFetchWord (s : State) (nbits w : Nat) : State :=
  let word := BitVec.ofNat 16 (w % 2 ^ nbits)
  { s with mem := Memory.write (Memory.write s.mem s.pc.toNat (hiByte word)) (s.pc.toNat + 1) (loByte word) }

end Sys2Proof.Machine
end

