-- ==== Sys2Proof/Machine/HostMoves.lean ====
section
/-! DEFINITION. The moves of the host between steps (rule R222, spec/70_reset_and_hazards.md), reset with a launch
among them (R210, R211). -/

namespace Sys2Proof.Machine

open Sys2Proof.Config (Params)

/-- What the host supplies at reset (R211), with the random bytes of a deterministic test harness (R142). -/
structure Launch where
  /-- The open parameters (R5, R6, R10). -/
  params : Params
  /-- The memory image: byte `k` is `MEM[k]`; what it does not reach is zero-filled (R211, log entry 4). -/
  image : List Byte
  /-- The initial display (R211). -/
  display : Display
  /-- The supplied random bytes, the next one first (R142). -/
  draws : List Byte
  deriving DecidableEq, Repr

/-- The state a launch gives the machine that was in state `s` (R37, R210): the keys are whatever the host drives
(R37), and free random bytes are never used twice (log entry 7). -/
def launchState (l : Launch) (s : State) : State :=
  { State.reset with
    stack := List.replicate l.params.stackDepth 0#16
    keys := s.keys
    mem := Memory.load [] 0 l.image
    disp := l.display
    memSize := l.params.memSize
    collisionRule := l.params.collisionRule
    draws := l.draws
    drawIndex := s.drawIndex }

/-- Reset with a launch (R210, R211), refused for the configurations outside the model (U2, U3, U28). -/
def launch (l : Launch) (s : State) : Result :=
  if l.params.memSize < Config.minMemSize ∨ Config.maxMemSize < l.params.memSize then .refused .memSizeOutOfRange
  else if l.params.stackDepth = 0 then .refused .noStackSlots
  else if l.params.memSize < l.image.length then .refused .imageTooLong
  else .next (launchState l s)

/-- The rows of the table of R222. -/
inductive HostMove where
  /-- One `Step()`, only while `MODE = Running` (R220). -/
  | cpuTick
  /-- `TimerTick()` (R199). -/
  | timerTick
  /-- `KEY[k] <- b` (R224). -/
  | keyChange (k : Fin 16) (b : Bool)
  /-- The host reads state; nothing changes (R226). -/
  | readOut
  /-- Reset with a launch, the only way out of Halted and Faulted (R210). -/
  | resetWith (l : Launch)
  /-- The host stops asking for steps; nothing changes (R227). -/
  | stopTicking
  deriving DecidableEq, Repr

/-- One move of the host (R222). -/
def hostMove (m : HostMove) (s : State) : Result :=
  match m with
  | .cpuTick => step s
  | .timerTick => .next s.timerTick
  | .keyChange k b => .next (s.setKey k b)
  | .readOut => .next s
  | .resetWith l => launch l s
  | .stopTicking => .next s

/-- A schedule of the host: its moves in order, ending at the first that the machine does not take (R222). -/
def runMoves : List HostMove → State → Result
  | [], s => .next s
  | m :: rest, s =>
    match hostMove m s with
    | .next t => runMoves rest t
    | .fault f => .fault f
    | .refused r => .refused r

end Sys2Proof.Machine
end

