-- ==== Sys2Proof/Safety.lean ====
section
/-! DEFINITION. The terms claims are stated in: the parts of the state and frames over them, the invariant, fault
entry as seen from outside, and the ends of a run (rule R221, spec/70_reset_and_hazards.md). -/

namespace Sys2Proof.Safety

open Sys2Proof.Machine

/-- The parts of the state that a frame speaks of. -/
inductive Part where
  | regs
  | pc
  | index
  | stack
  | delay
  | sound
  | keys
  | mode
  | faultRecord
  | memory
  | display
  | params
  | draws
  deriving DecidableEq, Repr

/-- Part `p` reads the same in `t` as in `s`: memory byte by byte, the display cell by cell, the registers and the
keys one by one. -/
def SamePart (p : Part) (s t : State) : Prop :=
  match p with
  | .regs => ∀ r, t.readV r = s.readV r
  | .pc => t.pc = s.pc
  | .index => t.i = s.i
  | .stack => t.sp = s.sp ∧ t.stack = s.stack
  | .delay => t.dt = s.dt
  | .sound => t.st = s.st
  | .keys => ∀ k, t.keyRead k = s.keyRead k
  | .mode => t.mode = s.mode
  | .faultRecord => t.faultCause = s.faultCause ∧ t.faultWord = s.faultWord ∧ t.faultAddr = s.faultAddr
  | .memory => ∀ a, Memory.read t.mem a = Memory.read s.mem a
  | .display => ∀ px py, Display.read t.disp px py = Display.read s.disp px py
  | .params => t.memSize = s.memSize ∧ t.collisionRule = s.collisionRule
  | .draws => t.draws = s.draws ∧ t.drawIndex = s.drawIndex

/-- The frame: every part but those listed reads the same in `t` as in `s`. -/
def SameExcept (ps : List Part) (s t : State) : Prop := ∀ p, p ∉ ps → SamePart p s t

/-- Every general register outside the list reads the same in `t` as in `s`. -/
def RegsExcept (rs : List Reg) (s t : State) : Prop := ∀ r, r ∉ rs → t.readV r = s.readV r

/-- `t` is `s` with the fault entered (R181): mode Faulted, the record as given (the cause by its number in R182),
everything else as it was. -/
def FaultEntered (cause : BitVec 3) (word addr : Word) (s t : State) : Prop :=
  t.mode = .faulted ∧ t.faultCause = cause ∧ t.faultWord = word ∧ t.faultAddr = addr ∧
    SameExcept [.mode, .faultRecord] s t

/-- The number of the fault that executing `i` raises in state `s`, read off the table of R182: `SYS` and the five
unimplemented opcodes always, `CALL` on a full stack, `RET` on an empty one, `DRW` with a sprite byte outside
memory, `SKP` and `SKNP` with a register above 15. -/
def raises (i : Instr) (s : State) : Option (BitVec 3) :=
  match i with
  | .sys _ => some 2#3
  | .fx0a _ => some 3#3
  | .fx29 _ => some 3#3
  | .fx33 _ => some 3#3
  | .fx55 _ => some 3#3
  | .fx65 _ => some 3#3
  | .call _ => if s.sp = s.stackDepth then some 4#3 else none
  | .ret => if s.sp = 0 then some 5#3 else none
  | .drw _ _ n => if 0 < n.toNat ∧ s.memSize < s.i.toNat + n.toNat then some 6#3 else none
  | .skp x => if 15 < (s.readV x).toNat then some 7#3 else none
  | .sknp x => if 15 < (s.readV x).toNat then some 7#3 else none
  | .halt => none
  | .cls => none
  | .jp _ => none
  | .seImm _ _ => none
  | .sneImm _ _ => none
  | .seReg _ _ => none
  | .ldImm _ _ => none
  | .addImm _ _ => none
  | .ldReg _ _ => none
  | .orReg _ _ => none
  | .andReg _ _ => none
  | .xorReg _ _ => none
  | .addReg _ _ => none
  | .sub _ _ => none
  | .shr _ _ => none
  | .subn _ _ => none
  | .shl _ _ => none
  | .sneReg _ _ => none
  | .ldI _ => none
  | .jpV0 _ => none
  | .rnd _ _ => none
  | .ldVxDt _ => none
  | .ldDtVx _ => none
  | .ldStVx _ => none
  | .addI _ => none

/-- The general register an instruction names as its destination (R22), if any. -/
def destination (i : Instr) : Option Reg :=
  match i with
  | .ldImm x _ => some x
  | .addImm x _ => some x
  | .ldReg x _ => some x
  | .orReg x _ => some x
  | .andReg x _ => some x
  | .xorReg x _ => some x
  | .addReg x _ => some x
  | .sub x _ => some x
  | .shr x _ => some x
  | .subn x _ => some x
  | .shl x _ => some x
  | .rnd x _ => some x
  | .ldVxDt x => some x
  | .halt => none
  | .cls => none
  | .ret => none
  | .sys _ => none
  | .jp _ => none
  | .call _ => none
  | .seImm _ _ => none
  | .sneImm _ _ => none
  | .seReg _ _ => none
  | .sneReg _ _ => none
  | .ldI _ => none
  | .jpV0 _ => none
  | .drw _ _ _ => none
  | .skp _ => none
  | .sknp _ => none
  | .ldDtVx _ => none
  | .ldStVx _ => none
  | .addI _ => none
  | .fx0a _ => none
  | .fx29 _ => none
  | .fx33 _ => none
  | .fx55 _ => none
  | .fx65 _ => none

/-- The seven instructions that write `VF` as a flag (R22). -/
def writesFlag (i : Instr) : Bool :=
  match i with
  | .addImm _ _ => true
  | .addReg _ _ => true
  | .sub _ _ => true
  | .shr _ _ => true
  | .subn _ _ => true
  | .shl _ _ => true
  | .drw _ _ _ => true
  | .halt => false
  | .cls => false
  | .ret => false
  | .sys _ => false
  | .jp _ => false
  | .call _ => false
  | .seImm _ _ => false
  | .sneImm _ _ => false
  | .seReg _ _ => false
  | .ldImm _ _ => false
  | .ldReg _ _ => false
  | .orReg _ _ => false
  | .andReg _ _ => false
  | .xorReg _ _ => false
  | .sneReg _ _ => false
  | .ldI _ => false
  | .jpV0 _ => false
  | .rnd _ _ => false
  | .skp _ => false
  | .sknp _ => false
  | .ldVxDt _ => false
  | .ldDtVx _ => false
  | .ldStVx _ => false
  | .addI _ => false
  | .fx0a _ => false
  | .fx29 _ => false
  | .fx33 _ => false
  | .fx55 _ => false
  | .fx65 _ => false

/-- The sprite column that lands on display column `px` when the sprite starts at `xStart` (R152); a value of 8 or
more is no sprite column. -/
def columnAt (xStart : Nat) (px : Fin 64) : Nat := (px.val + 64 - xStart % 64) % 64

/-- The sprite row that lands on display line `py` when the sprite starts at `yStart` (R152). -/
def rowAt (yStart : Nat) (py : Fin 32) : Nat := (py.val + 32 - yStart % 32) % 32

/-- Whether the 8 by `n` rectangle of `DRW Vx,Vy,n` covers the cell. -/
def covered (s : State) (x y : Reg) (n : Nibble) (px : Fin 64) (py : Fin 32) : Prop :=
  columnAt (s.readV x).toNat px < 8 ∧ rowAt (s.readV y).toNat py < n.toNat

/-- The sprite bit over a covered cell: bit `7 - column` of the row's byte in memory (R152). -/
def spriteBitOver (s : State) (x y : Reg) (px : Fin 64) (py : Fin 32) : Bool :=
  (Memory.read s.mem (s.i.toNat + rowAt (s.readV y).toNat py)).getLsbD (7 - columnAt (s.readV x).toNat px)

/-- Every byte of a sprite of `n` rows at `I` lies in memory (R151). -/
def spriteInMemory (s : State) (n : Nibble) : Prop := n.toNat = 0 ∨ s.i.toNat + n.toNat ≤ s.memSize

/-- A function on next states, carried through an answer. -/
def mapNext (f : State → State) (r : Result) : Result :=
  match r with
  | .next t => .next (f t)
  | .fault e => .fault e
  | .refused e => .refused e

/-- The word `w` stands for the instruction `i`, in both directions. -/
def EncodesAs (i : Instr) (w : Word) : Prop := decodeWord w = some i ∧ encode i = w

/-- The two bytes at `PC` lie inside memory and form the word `w` (R53, R26). -/
def Fetches (s : State) (w : Word) : Prop :=
  s.pc.toNat + 1 < s.memSize ∧
    wordOfBytes (Memory.read s.mem s.pc.toNat) (Memory.read s.mem (s.pc.toNat + 1)) = w

/-- The invariant of the machine: its parameters are allowed (R5, R6), memory is canonical and inside `MEM_SIZE`,
`SP` is at most `STACK_DEPTH` (R29), every live return address and `PC` are within the bounds of R27, and a Faulted
machine has a recorded cause (R33). -/
structure Inv (s : State) : Prop where
  memSize_ge : Config.minMemSize ≤ s.memSize
  memSize_le : s.memSize ≤ Config.maxMemSize
  stackDepth_pos : 1 ≤ s.stackDepth
  sp_le : s.sp ≤ s.stackDepth
  mem_wf : Memory.wf s.mem = true
  mem_inside : ∀ c ∈ s.mem, c.1 < s.memSize
  returns_le : ∀ a ∈ s.stack.take s.sp, a.toNat ≤ s.memSize
  pc_le : s.pc.toNat ≤ max (s.memSize + 2) 0x10FE
  cause_recorded : s.mode = .faulted → s.faultCause ≠ 0#3

/-- The one good end of a run (R221). -/
def GoodEnd (s : State) : Prop := s.mode = .halted

/-- The bad end of a run (R221, R186). -/
def BadEnd (s : State) : Prop := s.mode = .faulted

/-- No state that a schedule of host moves reaches from `s`, after any number of its moves, is a bad end. -/
def RunIsSafe (ms : List HostMove) (s : State) : Prop :=
  ∀ k t, runMoves (ms.take k) s = .next t → ¬ BadEnd t

end Sys2Proof.Safety
end

