-- ==== Sys2Proof/Certificates/Slice0/Obligations.lean ====
section
/-! DEFINITION. The statements for the provers, from the numbered rules of spec/. On entry to `exec` the `PC` of the
state holds the instruction's address plus 2 (rule R24). -/

open Sys2Proof Sys2Proof.Machine Sys2Proof.Safety
open Sys2Proof.Config (CollisionRule)

/-! ### Encoding -/

/-- Decoding the word of a well-formed instruction gives the instruction back with every operand, from the word and
from its two bytes with anything behind them (R70 to R73, R76, R78). -/
def Obligations.DecodeOfEncodeIsTheInstruction : Prop :=
  ∀ i : Instr, i.wellFormed = true →
    decodeWord (encode i) = some i ∧
    ∀ rest, decodeBytes (hiByte (encode i) :: loByte (encode i) :: rest) = .instr i rest

/-- A word that decodes is the word of the well-formed instruction it decodes to, so no bit of it is dropped and no
two words share an instruction (R73, R76, R78, R84). -/
def Obligations.EncodeOfDecodeIsTheWord : Prop :=
  ∀ (w : Word) (i : Instr), decodeWord w = some i → encode i = w ∧ i.wellFormed = true

/-- The words no row takes are those of the table of R79, class by class. -/
def Obligations.IllegalWordsAreThoseOfTheTable : Prop :=
  ∀ w : Word, decodeWord w = none ↔
    (w.toNat / 4096 = 5 ∧ w.toNat % 16 ≠ 0) ∨
    (w.toNat / 4096 = 8 ∧ w.toNat % 16 ∈ [0x8, 0x9, 0xA, 0xB, 0xC, 0xD, 0xF]) ∨
    (w.toNat / 4096 = 9 ∧ w.toNat % 16 ≠ 0) ∨
    (w.toNat / 4096 = 14 ∧ w.toNat % 256 ∉ [0x9E, 0xA1]) ∨
    (w.toNat / 4096 = 15 ∧ w.toNat % 256 ∉ [0x07, 0x0A, 0x15, 0x18, 0x1E, 0x29, 0x33, 0x55, 0x65])

/-- One word of each family, written bit by bit from the formats of R74 and the rows of R78. -/
def Obligations.WordsOfTheSpecDecode : Prop :=
  decodeWord 0b0000000011101110#16 = some .ret ∧
  decodeWord 0b0010000100000000#16 = some (.call 0x100#12) ∧
  decodeWord 0b0011000000000101#16 = some (.seImm 0 0x05#8) ∧
  decodeWord 0b1000000100100111#16 = some (.subn 1 2) ∧
  decodeWord 0b1111000100011110#16 = some (.addI 1) ∧
  decodeWord 0b1101000000010010#16 = some (.drw 0 1 2#4) ∧
  decodeWord 0b1110000110100001#16 = some (.sknp 1) ∧
  decodeWord 0b1111001000010101#16 = some (.ldDtVx 2) ∧
  decodeWord 0b1111001100001010#16 = some (.fx0a 3)

/-! ### The step -/

/-- The fetch reads two bytes and assembles them big-endian (R53). That it does so at an odd `PC` as at an even one, and
that it gives no word unless both bytes lie in memory, the spec marks as its own choices (decisions D23 and D7, log
entry 11). -/
def Obligations.FetchIsBigEndian : Prop :=
  ∀ (s : State) (w : Word), s.fetch = some w ↔
    s.pc.toNat + 1 < s.memSize ∧
    w.toNat = (Memory.read s.mem s.pc.toNat).toNat * 256 + (Memory.read s.mem (s.pc.toNat + 1)).toNat ∧
    hiByte w = Memory.read s.mem s.pc.toNat ∧ loByte w = Memory.read s.mem (s.pc.toNat + 1)

/-- When the bytes at `PC` decode to `i`, which is then well formed, the step of a Running machine is `exec i` with
`PC` moved past the word first, and with nothing else around it (R220). -/
def Obligations.StepRunsTheDecodedInstruction : Prop :=
  ∀ (s : State) (w : Word) (i : Instr), s.mode = .running → Fetches s w → decodeWord w = some i →
    i.wellFormed = true ∧ step s = exec i (s.setPc (s.pc + 2#16))

/-- A step whose fetch leaves memory enters the fault `MemoryBounds` (6) with `FAULT_WORD` 0 and `PC` unchanged. The
spec marks this fault and its record as its own choice (decisions D7 and D18). -/
def Obligations.StepOutsideMemoryFaults : Prop :=
  ∀ s : State, s.mode = .running → s.memSize ≤ s.pc.toNat + 1 →
    ∃ t, step s = .next t ∧ FaultEntered 6#3 0#16 s.pc s t

/-- A step on a word of no row enters the fault `DecodeError` (1) with the word and its address, `PC` moved past it.
The spec marks the record as its own choice (decision D18). -/
def Obligations.StepOnIllegalWordFaults : Prop :=
  ∀ (s : State) (w : Word), s.mode = .running → Fetches s w → decodeWord w = none →
    ∃ t, step s = .next t ∧ t.pc = s.pc + 2#16 ∧ FaultEntered 1#3 w s.pc (s.setPc (s.pc + 2#16)) t

/-- A Halted and a Faulted machine take no step, which the spec marks as its own choice (decision D17); and in no other
mode does a step answer a fault of the model, but for `stackPointerOutOfRange`, which is the model's DESIGN CHOICE for
states that no run reaches (log entry 9). -/
def Obligations.StoppedMachineTakesNoStep : Prop :=
  ∀ s : State, (s.mode = .halted → step s = .fault .stuckHalted) ∧
    (s.mode = .faulted → step s = .fault .stuckFaulted) ∧
    (∀ f, step s = .fault f → f ≠ .stackPointerOutOfRange → s.mode ≠ .running)

/-- A table word placed at the fetch address is what the next step fetches, and it runs what the decoder reads from it. -/
def Obligations.PlacedWordIsFetchedAndRun : Prop :=
  ∀ (s : State) (w : Word), s.mode = .running → s.pc.toNat + 1 < s.memSize → Memory.wf s.mem = true →
    Fetches (s.withFetchWord 16 w.toNat) w ∧ decodeTableWord 16 w.toNat = decodeWord w ∧
    (∀ i, decodeTableWord 16 w.toNat = some i →
      step (s.withFetchWord 16 w.toNat) = exec i ((s.withFetchWord 16 w.toNat).setPc (s.pc + 2#16))) ∧
    (∀ a, a ≠ s.pc.toNat → a ≠ s.pc.toNat + 1 →
      Memory.read (s.withFetchWord 16 w.toNat).mem a = Memory.read s.mem a)

/-! ### Control flow -/

/-- `HALT`, the word `0000`: the mode becomes Halted and nothing else changes; in a step `PC` ends at the address plus
2 (R100). That no further step is taken the spec marks as its own choice (decision D17). -/
def Obligations.HaltEndsTheRun : Prop :=
  EncodesAs .halt 0x0000#16 ∧
  (∀ s : State, ∃ t, exec .halt s = .next t ∧ t.mode = .halted ∧ SameExcept [.mode] s t) ∧
  (∀ s : State, s.mode = .running → Fetches s 0x0000#16 →
    ∃ t, step s = .next t ∧ t.mode = .halted ∧ t.pc = s.pc + 2#16 ∧ SameExcept [.mode, .pc] s t ∧
      step t = .fault .stuckHalted)

/-- `JP addr`, `1NNN`: `PC` becomes `addr` and nothing else changes (R101). A target whose bytes leave memory faults in
the next step, not in the jump; that fault the spec marks as its own choice (decisions D7 and D18). -/
def Obligations.JumpLoadsTheAddress : Prop :=
  ∀ addr : Addr12, EncodesAs (.jp addr) (BitVec.ofNat 16 (0x1000 + addr.toNat)) ∧
    ∀ s : State, ∃ t, exec (.jp addr) s = .next t ∧ t.pc.toNat = addr.toNat ∧ SameExcept [.pc] s t ∧
      (s.mode = .running → s.memSize ≤ addr.toNat + 1 → ∃ u, step t = .next u ∧ FaultEntered 6#3 0#16 t.pc t u)

/-- `CALL addr`, `2NNN`: below a full stack the incremented `PC` goes to the slot at `SP`, `SP` goes up by 1 and `PC`
becomes `addr`; on a full stack the call enters `StackOverflow` (4) and neither the stack, `SP` nor `PC` changes
(R102). The record of the fault the spec marks as its own choice (decision D18). -/
def Obligations.CallPushesTheReturnAddress : Prop :=
  ∀ addr : Addr12, EncodesAs (.call addr) (BitVec.ofNat 16 (0x2000 + addr.toNat)) ∧
    (∀ s : State, s.sp < s.stackDepth →
      ∃ t, exec (.call addr) s = .next t ∧ t.stack[s.sp]? = some s.pc ∧
        (∀ k, k ≠ s.sp → t.stack[k]? = s.stack[k]?) ∧ t.stackDepth = s.stackDepth ∧
        t.sp = s.sp + 1 ∧ t.pc.toNat = addr.toNat ∧ SameExcept [.pc, .stack] s t) ∧
    (∀ s : State, s.sp = s.stackDepth →
      ∃ t, exec (.call addr) s = .next t ∧
        FaultEntered 4#3 (BitVec.ofNat 16 (0x2000 + addr.toNat)) (s.pc - 2#16) s t)

/-- `RET`, the word `00EE`: with a call outstanding `PC` becomes the slot below `SP`, `SP` goes down by 1 and every slot
keeps its value; on an empty stack it enters `StackUnderflow` (5), which the spec marks as its own choice among the
document's policies (decision D8). -/
def Obligations.ReturnPopsTheReturnAddress : Prop :=
  EncodesAs .ret 0x00EE#16 ∧
  (∀ s : State, 0 < s.sp → s.sp ≤ s.stackDepth →
    ∃ t, exec .ret s = .next t ∧ s.stack[s.sp - 1]? = some t.pc ∧ t.sp = s.sp - 1 ∧ t.stack = s.stack ∧
      SameExcept [.pc, .stack] s t) ∧
  (∀ s : State, s.sp = 0 → ∃ t, exec .ret s = .next t ∧ FaultEntered 5#3 0x00EE#16 (s.pc - 2#16) s t)

/-- A `CALL` and then a `RET`, with the stack untouched in between, restore `PC` to the address after the call and `SP`
to its value before it, whatever else has changed (the document's property E4). -/
def Obligations.CallThenReturnRestores : Prop :=
  ∀ (addr : Addr12) (s : State), s.sp < s.stackDepth →
    ∃ t, exec (.call addr) s = .next t ∧
      ∀ t' : State, t'.sp = t.sp → t'.stack = t.stack →
        ∃ u, exec .ret t' = .next u ∧ u.pc = s.pc ∧ u.sp = s.sp ∧ SameExcept [.pc, .stack] t' u

/-- `SYS addr`, a word of class 0 other than the three fixed ones: it enters `SysUnsupported` (2) in every state, with
its word and address recorded. The spec marks the cause of its own as its choice (decisions D19 and D18). -/
def Obligations.SysAlwaysFaults : Prop :=
  ∀ addr : Addr12, addr ≠ 0x000#12 → addr ≠ 0x0E0#12 → addr ≠ 0x0EE#12 →
    EncodesAs (.sys addr) (BitVec.ofNat 16 addr.toNat) ∧
    ∀ s : State, ∃ t, exec (.sys addr) s = .next t ∧
      FaultEntered 2#3 (BitVec.ofNat 16 addr.toNat) (s.pc - 2#16) s t

/-- `JP V0,addr`, `BNNN`: `PC` becomes the sum of `addr` and `V[0]`, which is not reduced to 12 bits; the spec marks the
missing reduction as its own choice (decision D10). -/
def Obligations.JumpV0AddsRegisterZero : Prop :=
  ∀ addr : Addr12, EncodesAs (.jpV0 addr) (BitVec.ofNat 16 (0xB000 + addr.toNat)) ∧
    ∀ s : State, ∃ t, exec (.jpV0 addr) s = .next t ∧ t.pc.toNat = addr.toNat + (s.readV 0).toNat ∧
      SameExcept [.pc] s t

/-- The four compare-and-skip instructions: `PC` moves on by 2 exactly when the condition holds, and nothing else
changes; in the two register forms the field `n` must be 0, and no other word of their classes decodes (R111 to
R114). -/
def Obligations.CompareSkipsMovePc : Prop :=
  ∀ (x y : Reg) (kk : Byte),
    EncodesAs (.seImm x kk) (BitVec.ofNat 16 (0x3000 + x.val * 256 + kk.toNat)) ∧
    EncodesAs (.sneImm x kk) (BitVec.ofNat 16 (0x4000 + x.val * 256 + kk.toNat)) ∧
    EncodesAs (.seReg x y) (BitVec.ofNat 16 (0x5000 + x.val * 256 + y.val * 16)) ∧
    EncodesAs (.sneReg x y) (BitVec.ofNat 16 (0x9000 + x.val * 256 + y.val * 16)) ∧
    (∀ n : Nibble, n ≠ 0#4 →
      decodeWord (BitVec.ofNat 16 (0x5000 + x.val * 256 + y.val * 16 + n.toNat)) = none ∧
      decodeWord (BitVec.ofNat 16 (0x9000 + x.val * 256 + y.val * 16 + n.toNat)) = none) ∧
    ∀ s : State,
      (∃ t, exec (.seImm x kk) s = .next t ∧ SameExcept [.pc] s t ∧
        t.pc = if s.readV x = kk then s.pc + 2#16 else s.pc) ∧
      (∃ t, exec (.sneImm x kk) s = .next t ∧ SameExcept [.pc] s t ∧
        t.pc = if s.readV x ≠ kk then s.pc + 2#16 else s.pc) ∧
      (∃ t, exec (.seReg x y) s = .next t ∧ SameExcept [.pc] s t ∧
        t.pc = if s.readV x = s.readV y then s.pc + 2#16 else s.pc) ∧
      (∃ t, exec (.sneReg x y) s = .next t ∧ SameExcept [.pc] s t ∧
        t.pc = if s.readV x ≠ s.readV y then s.pc + 2#16 else s.pc)

/-! ### Registers and ALU -/

/-- `LD Vx,kk` and `LD Vx,Vy`: the destination holds the value, every other register (so `VF` too, unless it is the
destination) and every other part is unchanged (R120, R122). -/
def Obligations.LoadsWriteOneRegister : Prop :=
  ∀ (x y : Reg) (kk : Byte),
    EncodesAs (.ldImm x kk) (BitVec.ofNat 16 (0x6000 + x.val * 256 + kk.toNat)) ∧
    EncodesAs (.ldReg x y) (BitVec.ofNat 16 (0x8000 + x.val * 256 + y.val * 16)) ∧
    ∀ s : State,
      (∃ t, exec (.ldImm x kk) s = .next t ∧ t.readV x = kk ∧ RegsExcept [x] s t ∧ SameExcept [.regs] s t) ∧
      (∃ t, exec (.ldReg x y) s = .next t ∧ t.readV x = s.readV y ∧ RegsExcept [x] s t ∧ SameExcept [.regs] s t)

/-- `OR`, `AND`, `XOR`: bit by bit into `V[x]`, no flag, nothing else changes (R123 to R125). -/
def Obligations.LogicalOperationsAreBitwise : Prop :=
  ∀ x y : Reg,
    EncodesAs (.orReg x y) (BitVec.ofNat 16 (0x8001 + x.val * 256 + y.val * 16)) ∧
    EncodesAs (.andReg x y) (BitVec.ofNat 16 (0x8002 + x.val * 256 + y.val * 16)) ∧
    EncodesAs (.xorReg x y) (BitVec.ofNat 16 (0x8003 + x.val * 256 + y.val * 16)) ∧
    ∀ s : State,
      (∃ t, exec (.orReg x y) s = .next t ∧ RegsExcept [x] s t ∧ SameExcept [.regs] s t ∧
        ∀ k, (t.readV x).getLsbD k = ((s.readV x).getLsbD k || (s.readV y).getLsbD k)) ∧
      (∃ t, exec (.andReg x y) s = .next t ∧ RegsExcept [x] s t ∧ SameExcept [.regs] s t ∧
        ∀ k, (t.readV x).getLsbD k = ((s.readV x).getLsbD k && (s.readV y).getLsbD k)) ∧
      (∃ t, exec (.xorReg x y) s = .next t ∧ RegsExcept [x] s t ∧ SameExcept [.regs] s t ∧
        ∀ k, (t.readV x).getLsbD k = ((s.readV x).getLsbD k ^^ (s.readV y).getLsbD k))

/-- `ADD Vx,kk` and `ADD Vx,Vy`, for a destination other than `VF`: the sum modulo 256 in `V[x]`, and `VF` 1 exactly
when the sum exceeds 255, else 0; `y` may be 15, whose old value is then the operand (R121, R126). The destination
`VF`, where the spec's own choice of the write order decides, is in FlagWrittenLastIntoVF. -/
def Obligations.AddsSetTheCarry : Prop :=
  ∀ (x y : Reg) (kk : Byte), x ≠ regVF →
    EncodesAs (.addImm x kk) (BitVec.ofNat 16 (0x7000 + x.val * 256 + kk.toNat)) ∧
    EncodesAs (.addReg x y) (BitVec.ofNat 16 (0x8004 + x.val * 256 + y.val * 16)) ∧
    ∀ s : State,
      (∃ t, exec (.addImm x kk) s = .next t ∧ RegsExcept [x, regVF] s t ∧ SameExcept [.regs] s t ∧
        (t.readV x).toNat = ((s.readV x).toNat + kk.toNat) % 256 ∧
        (t.readV regVF).toNat = if (s.readV x).toNat + kk.toNat > 255 then 1 else 0) ∧
      (∃ t, exec (.addReg x y) s = .next t ∧ RegsExcept [x, regVF] s t ∧ SameExcept [.regs] s t ∧
        (t.readV x).toNat = ((s.readV x).toNat + (s.readV y).toNat) % 256 ∧
        (t.readV regVF).toNat = if (s.readV x).toNat + (s.readV y).toNat > 255 then 1 else 0)

/-- `SUB Vx,Vy` and `SUBN Vx,Vy`, for a destination other than `VF`: the difference modulo 256 in `V[x]`, and `VF` 1
exactly when no borrow occurs, equal operands among those cases (R127, R129). The destination `VF`, where the spec's
own choice of the write order decides, is in FlagWrittenLastIntoVF. -/
def Obligations.SubtractionsSetNoBorrow : Prop :=
  ∀ x y : Reg, x ≠ regVF →
    EncodesAs (.sub x y) (BitVec.ofNat 16 (0x8005 + x.val * 256 + y.val * 16)) ∧
    EncodesAs (.subn x y) (BitVec.ofNat 16 (0x8007 + x.val * 256 + y.val * 16)) ∧
    ∀ s : State,
      (∃ t, exec (.sub x y) s = .next t ∧ RegsExcept [x, regVF] s t ∧ SameExcept [.regs] s t ∧
        ((t.readV x).toNat : Int) = ((s.readV x).toNat - (s.readV y).toNat : Int) % 256 ∧
        (t.readV regVF).toNat = if (s.readV x).toNat ≥ (s.readV y).toNat then 1 else 0) ∧
      (∃ t, exec (.subn x y) s = .next t ∧ RegsExcept [x, regVF] s t ∧ SameExcept [.regs] s t ∧
        ((t.readV x).toNat : Int) = ((s.readV y).toNat - (s.readV x).toNat : Int) % 256 ∧
        (t.readV regVF).toNat = if (s.readV y).toNat ≥ (s.readV x).toNat then 1 else 0)

/-- `SHR Vx` and `SHL Vx`, for a destination other than `VF`: half, or twice modulo 256, in place, with the bit shifted
out in `VF`; the field `y` is ignored and `V[y]` is neither read nor written (R128, R130). The destination `VF`, where
the spec's own choice of the write order decides, is in FlagWrittenLastIntoVF. -/
def Obligations.ShiftsKeepTheBitShiftedOut : Prop :=
  ∀ x y : Reg, x ≠ regVF →
    EncodesAs (.shr x y) (BitVec.ofNat 16 (0x8006 + x.val * 256 + y.val * 16)) ∧
    EncodesAs (.shl x y) (BitVec.ofNat 16 (0x800E + x.val * 256 + y.val * 16)) ∧
    ∀ s : State,
      (∃ t, exec (.shr x y) s = .next t ∧ RegsExcept [x, regVF] s t ∧ SameExcept [.regs] s t ∧
        (t.readV x).toNat = (s.readV x).toNat / 2 ∧ (t.readV regVF).toNat = (s.readV x).toNat % 2) ∧
      (∃ t, exec (.shl x y) s = .next t ∧ RegsExcept [x, regVF] s t ∧ SameExcept [.regs] s t ∧
        (t.readV x).toNat = 2 * (s.readV x).toNat % 256 ∧ (t.readV regVF).toNat = (s.readV x).toNat / 128)

/-- The six arithmetic flag writers with `VF` as their destination: `VF` ends as the flag of the old operands, and no
other register and no other part changes. The spec marks the order of the two writes as its own choice (decision
D12). -/
def Obligations.FlagWrittenLastIntoVF : Prop :=
  ∀ (y : Reg) (kk : Byte) (s : State),
    (∃ t, exec (.addImm regVF kk) s = .next t ∧ RegsExcept [regVF] s t ∧ SameExcept [.regs] s t ∧
      (t.readV regVF).toNat = if (s.readV regVF).toNat + kk.toNat > 255 then 1 else 0) ∧
    (∃ t, exec (.addReg regVF y) s = .next t ∧ RegsExcept [regVF] s t ∧ SameExcept [.regs] s t ∧
      (t.readV regVF).toNat = if (s.readV regVF).toNat + (s.readV y).toNat > 255 then 1 else 0) ∧
    (∃ t, exec (.sub regVF y) s = .next t ∧ RegsExcept [regVF] s t ∧ SameExcept [.regs] s t ∧
      (t.readV regVF).toNat = if (s.readV regVF).toNat ≥ (s.readV y).toNat then 1 else 0) ∧
    (∃ t, exec (.subn regVF y) s = .next t ∧ RegsExcept [regVF] s t ∧ SameExcept [.regs] s t ∧
      (t.readV regVF).toNat = if (s.readV y).toNat ≥ (s.readV regVF).toNat then 1 else 0) ∧
    (∃ t, exec (.shr regVF y) s = .next t ∧ RegsExcept [regVF] s t ∧ SameExcept [.regs] s t ∧
      (t.readV regVF).toNat = (s.readV regVF).toNat % 2) ∧
    (∃ t, exec (.shl regVF y) s = .next t ∧ RegsExcept [regVF] s t ∧ SameExcept [.regs] s t ∧
      (t.readV regVF).toNat = (s.readV regVF).toNat / 128)

/-- `SHL` then `SHR` on one register other than `VF` gives the value without bit 7, with bit 7 and then 0 as flags; `SHR`
then `SHL` gives it without bit 0, with bit 0 and then 0 as flags. The spec derives this from its rules (R134,
conflict C4). -/
def Obligations.ShiftRoundTrips : Prop :=
  ∀ (x y y' : Reg) (s : State), x ≠ regVF →
    (∃ t u, exec (.shl x y) s = .next t ∧ exec (.shr x y') t = .next u ∧
      (u.readV x).toNat = (s.readV x).toNat % 128 ∧ (t.readV regVF).toNat = (s.readV x).toNat / 128 ∧
      (u.readV regVF).toNat = 0 ∧ RegsExcept [x, regVF] s u ∧ SameExcept [.regs] s u) ∧
    (∃ t u, exec (.shr x y) s = .next t ∧ exec (.shl x y') t = .next u ∧
      (u.readV x).toNat = (s.readV x).toNat - (s.readV x).toNat % 2 ∧
      (t.readV regVF).toNat = (s.readV x).toNat % 2 ∧ (u.readV regVF).toNat = 0 ∧
      RegsExcept [x, regVF] s u ∧ SameExcept [.regs] s u)

/-! ### Index register and random -/

/-- `LD I,addr`, `ANNN`: `I` becomes `addr` zero-extended, nothing else changes and memory's size is not consulted
(R140). -/
def Obligations.LoadIndexZeroExtends : Prop :=
  ∀ addr : Addr12, EncodesAs (.ldI addr) (BitVec.ofNat 16 (0xA000 + addr.toNat)) ∧
    ∀ s : State, ∃ t, exec (.ldI addr) s = .next t ∧ t.i.toNat = addr.toNat ∧ SameExcept [.index] s t

/-- `ADD I,Vx`, `FX1E`: the sum modulo 2^16 in `I`, no flag, nothing else changes. The spec marks the width at which `I`
wraps as its own choice (decision D5). -/
def Obligations.AddIndexWrapsAtSixteenBits : Prop :=
  ∀ x : Reg, EncodesAs (.addI x) (BitVec.ofNat 16 (0xF01E + x.val * 256)) ∧
    ∀ s : State, ∃ t, exec (.addI x) s = .next t ∧ t.i.toNat = (s.i.toNat + (s.readV x).toNat) % 65536 ∧
      SameExcept [.index] s t

/-- `RND Vx,kk`, `CXKK`: `V[x]` is the drawn byte masked with `kk`, whatever the draw; a supplied byte is drawn once and
in order. That the bytes are supplied with the launch is the model's form of the source (log entry 7). -/
def Obligations.RandomByteIsMasked : Prop :=
  ∀ (x : Reg) (kk : Byte), EncodesAs (.rnd x kk) (BitVec.ofNat 16 (0xC000 + x.val * 256 + kk.toNat)) ∧
    (∀ s : State, ∃ t b, exec (.rnd x kk) s = .next t ∧ t.readV x = b &&& kk ∧ t.readV x &&& ~~~kk = 0#8 ∧
      RegsExcept [x] s t ∧ SameExcept [.regs, .draws] s t) ∧
    (∀ (s : State) (b : Byte) (rest : List Byte), s.draws = b :: rest →
      ∃ t, exec (.rnd x kk) s = .next t ∧ t.readV x = b &&& kk ∧ t.draws = rest)

/-! ### Display -/

/-- `CLS`, the word `00E0`: every cell is off and nothing else changes (R150). -/
def Obligations.ClearScreenTurnsEveryCellOff : Prop :=
  EncodesAs .cls 0x00E0#16 ∧
  ∀ s : State, ∃ t, exec .cls s = .next t ∧ (∀ px py, Display.read t.disp px py = false) ∧
    SameExcept [.display] s t

/-- `DRW Vx,Vy,n`, `DXYN`, with its sprite in memory: a cell flips exactly when the toroidal 8 by `n` rectangle covers it
and the sprite bit over it is 1; `VF` is 0 or 1; no other register and no other part changes. The blit's loops are
thereby equal to one formula for each cell. That a sprite outside memory faults is DrawOutsideMemoryFaults. -/
def Obligations.DrawFlipsTheSpriteCells : Prop :=
  ∀ (x y : Reg) (n : Nibble),
    EncodesAs (.drw x y n) (BitVec.ofNat 16 (0xD000 + x.val * 256 + y.val * 16 + n.toNat)) ∧
    ∀ s : State, spriteInMemory s n →
      ∃ t, exec (.drw x y n) s = .next t ∧
        (∀ px py, (covered s x y n px py →
            Display.read t.disp px py = (Display.read s.disp px py ^^ spriteBitOver s x y px py)) ∧
          (¬ covered s x y n px py → Display.read t.disp px py = Display.read s.disp px py)) ∧
        (t.readV regVF = 0#8 ∨ t.readV regVF = 1#8) ∧
        RegsExcept [regVF] s t ∧ SameExcept [.regs, .display] s t

/-- The collision flag of `DRW` in terms of the display before it: under `Standard` it is 1 exactly when some covered
cell was on under a 1 bit, under `Literal` exactly when some sprite bit equals the covered cell under it. The spec
leaves the rule a parameter and marks its value as its own choice (decision D9). -/
def Obligations.DrawCollisionFlag : Prop :=
  ∀ (x y : Reg) (n : Nibble) (s : State), spriteInMemory s n →
    ∃ t, exec (.drw x y n) s = .next t ∧
      (s.collisionRule = .standard →
        (t.readV regVF = 1#8 ↔ ∃ px py, covered s x y n px py ∧ spriteBitOver s x y px py = true ∧
          Display.read s.disp px py = true)) ∧
      (s.collisionRule = .literal →
        (t.readV regVF = 1#8 ↔ ∃ px py, covered s x y n px py ∧
          spriteBitOver s x y px py = Display.read s.disp px py)) ∧
      (t.readV regVF ≠ 1#8 → t.readV regVF = 0#8)

/-- The same sprite drawn twice at the same place restores every cell. The second flag is 1, under `Standard`, exactly
when the sprite has a 1 bit over a cell that was off at first, and under `Literal` exactly when it covers a cell that
was off at first. The second draw starts from any state with the first one's display and the same coordinates, index
and memory, so that `VF` may be a coordinate (the document's property E5; the spec derives the flag under `Standard`
in R153, and under `Literal` it follows from R152; the rule is a parameter, decision D9). -/
def Obligations.DrawTwiceRestoresTheDisplay : Prop :=
  ∀ (x y : Reg) (n : Nibble) (s : State), spriteInMemory s n →
    ∃ t, exec (.drw x y n) s = .next t ∧
      ∀ t' : State, t'.disp = t.disp → t'.mem = s.mem → t'.memSize = s.memSize → t'.i = s.i →
        t'.collisionRule = s.collisionRule → t'.readV x = s.readV x → t'.readV y = s.readV y →
        ∃ u, exec (.drw x y n) t' = .next u ∧
          (∀ px py, Display.read u.disp px py = Display.read s.disp px py) ∧
          (s.collisionRule = .standard →
            (u.readV regVF = 1#8 ↔ ∃ px py, covered s x y n px py ∧ spriteBitOver s x y px py = true ∧
              Display.read s.disp px py = false)) ∧
          (s.collisionRule = .literal →
            (u.readV regVF = 1#8 ↔ ∃ px py, covered s x y n px py ∧ Display.read s.disp px py = false))

/-- `DRW` with a sprite byte outside memory enters `MemoryBounds` (6) and changes no cell and no register. The spec marks
the fault and its place before the blit as its own choice (decisions D7 and D18). -/
def Obligations.DrawOutsideMemoryFaults : Prop :=
  ∀ (x y : Reg) (n : Nibble) (s : State), ¬ spriteInMemory s n →
    ∃ t, exec (.drw x y n) s = .next t ∧
      FaultEntered 6#3 (BitVec.ofNat 16 (0xD000 + x.val * 256 + y.val * 16 + n.toNat)) (s.pc - 2#16) s t

/-! ### Keypad and timers -/

/-- `SKP Vx` and `SKNP Vx` with `V[x]` at most 15: `PC` moves on by 2 exactly when the key that the value of `V[x]`
selects is pressed, or is not pressed, and nothing else changes. A value above 15 is KeyIndexAboveFifteenFaults. -/
def Obligations.KeySkipsReadTheKey : Prop :=
  ∀ x : Reg,
    EncodesAs (.skp x) (BitVec.ofNat 16 (0xE09E + x.val * 256)) ∧
    EncodesAs (.sknp x) (BitVec.ofNat 16 (0xE0A1 + x.val * 256)) ∧
    ∀ (s : State) (k : Fin 16), (s.readV x).toNat = k.val →
      (∃ t, exec (.skp x) s = .next t ∧ SameExcept [.pc] s t ∧
        t.pc = if s.keyRead k = true then s.pc + 2#16 else s.pc) ∧
      (∃ t, exec (.sknp x) s = .next t ∧ SameExcept [.pc] s t ∧
        t.pc = if s.keyRead k = false then s.pc + 2#16 else s.pc)

/-- `SKP Vx` and `SKNP Vx` with `V[x]` above 15 enter `KeyIndex` (7) and change nothing else. The spec marks this fault as
its own choice (decisions D14 and D18). -/
def Obligations.KeyIndexAboveFifteenFaults : Prop :=
  ∀ (x : Reg) (s : State), 15 < (s.readV x).toNat →
    (∃ t, exec (.skp x) s = .next t ∧
      FaultEntered 7#3 (BitVec.ofNat 16 (0xE09E + x.val * 256)) (s.pc - 2#16) s t) ∧
    (∃ t, exec (.sknp x) s = .next t ∧
      FaultEntered 7#3 (BitVec.ofNat 16 (0xE0A1 + x.val * 256)) (s.pc - 2#16) s t)

/-- `LD Vx,DT`, `LD DT,Vx` and `LD ST,Vx`: each moves one byte and changes nothing else, `VF` only where it is the
destination (R163 to R165). -/
def Obligations.TimerInstructionsMoveOneByte : Prop :=
  ∀ x : Reg,
    EncodesAs (.ldVxDt x) (BitVec.ofNat 16 (0xF007 + x.val * 256)) ∧
    EncodesAs (.ldDtVx x) (BitVec.ofNat 16 (0xF015 + x.val * 256)) ∧
    EncodesAs (.ldStVx x) (BitVec.ofNat 16 (0xF018 + x.val * 256)) ∧
    ∀ s : State,
      (∃ t, exec (.ldVxDt x) s = .next t ∧ t.readV x = s.dt ∧ RegsExcept [x] s t ∧ SameExcept [.regs] s t) ∧
      (∃ t, exec (.ldDtVx x) s = .next t ∧ t.dt = s.readV x ∧ SameExcept [.delay] s t) ∧
      (∃ t, exec (.ldStVx x) s = .next t ∧ t.st = s.readV x ∧ SameExcept [.sound] s t)

/-- A timer tick of the host lowers each timer that is not zero by one, leaves a zero timer at zero, and changes nothing
else. The spec marks the amount, the floor and the common tick as its own choice (decision D15). -/
def Obligations.TimerTickCountsDownToZero : Prop :=
  ∀ s : State, ∃ t, hostMove .timerTick s = .next t ∧ t.dt.toNat = s.dt.toNat - 1 ∧ t.st.toNat = s.st.toNat - 1 ∧
    SameExcept [.delay, .sound] s t

/-- Between a write of `DT` and a read with `k` timer ticks in between, the value read is the value written less `k`, not
below 0. The spec derives this (R200) from its own choice of the tick (decision D15). -/
def Obligations.DelayReadIsWriteLessTicks : Prop :=
  ∀ (x y : Reg) (k : Nat) (s : State),
    ∃ t u v, exec (.ldDtVx x) s = .next t ∧ runMoves (List.replicate k .timerTick) t = .next u ∧
      exec (.ldVxDt y) u = .next v ∧ (v.readV y).toNat = (s.readV x).toNat - k ∧
      RegsExcept [y] s v ∧ SameExcept [.regs, .delay, .sound] s v

/-! ### Faults -/

/-- `FX0A`, `FX29`, `FX33`, `FX55` and `FX65` enter `Unimplemented` (3) in every state, with their word and address, and
change nothing else. The spec marks the cause and its record as its own choice (decisions D11 and D18). -/
def Obligations.UnimplementedOpcodesFault : Prop :=
  ∀ (x : Reg) (i : Instr) (low : Nat),
    (i, low) ∈ [(Instr.fx0a x, 0x0A), (.fx29 x, 0x29), (.fx33 x, 0x33), (.fx55 x, 0x55), (.fx65 x, 0x65)] →
    EncodesAs i (BitVec.ofNat 16 (0xF000 + x.val * 256 + low)) ∧
    ∀ s : State, ∃ t, exec i s = .next t ∧
      FaultEntered 3#3 (BitVec.ofNat 16 (0xF000 + x.val * 256 + low)) (s.pc - 2#16) s t

/-- In every state with `SP` in its range every instruction answers a next state: the fault entry that the table of R182
names for it, where there is one, and otherwise a state whose mode is Halted after `HALT` and unchanged after every
other instruction, with the fault record unchanged. Three of the seven conditions are the spec's own choice
(decisions D7, D8 and D14). -/
def Obligations.FaultConditionsAreThoseOfTheTable : Prop :=
  ∀ (i : Instr) (s : State), s.sp ≤ s.stackDepth →
    ∃ t, exec i s = .next t ∧
      (∀ c, raises i s = some c → FaultEntered c (encode i) (s.pc - 2#16) s t) ∧
      (raises i s = none → SamePart .faultRecord s t ∧ t.mode = if i = .halt then .halted else s.mode)

/-- Faults are precise: a step that ends Faulted changes only `PC`, the mode and the record; the record holds the address
fetched from and the word fetched, and `PC` is past the word, but for a fetch outside memory, which records 0 and
leaves `PC`. The spec marks the record and three placements as its own choice (decisions D7, D8, D14 and D18). -/
def Obligations.FaultsArePrecise : Prop :=
  ∀ s t : State, step s = .next t → t.mode = .faulted →
    s.mode = .running ∧ t.faultAddr = s.pc ∧ t.faultCause ≠ 0#3 ∧
    SameExcept [.pc, .mode, .faultRecord] s t ∧
    ((s.memSize ≤ s.pc.toNat + 1 ∧ t.pc = s.pc ∧ t.faultWord = 0#16 ∧ t.faultCause = 6#3) ∨
      (∃ w, Fetches s w ∧ t.pc = s.pc + 2#16 ∧ t.faultWord = w ∧
        match decodeWord w with
        | none => t.faultCause = 1#3
        | some i => raises i (s.setPc (s.pc + 2#16)) = some t.faultCause))

/-! ### Rules of the whole machine -/

/-- Only the seven flag writers change `VF` without naming it as their destination, and each of them leaves 0 or 1 in it
unless it faulted (R22). Where `VF` is itself the destination this rests on the order of the two writes, which the
spec marks as its own choice (decision D12, log entry 11). -/
def Obligations.OnlyFlagWritersChangeVF : Prop :=
  ∀ (i : Instr) (s t : State), exec i s = .next t →
    (writesFlag i = false → destination i ≠ some regVF → t.readV regVF = s.readV regVF) ∧
    (writesFlag i = true → raises i s = none → t.readV regVF = 0#8 ∨ t.readV regVF = 1#8)

/-- Which instruction writes which part of the state, over all instructions: no instruction writes memory, the keys or
the parameters; only `CLS` and `DRW` the display, only `CALL` and `RET` the stack, only `LD DT,Vx` the delay timer,
only `LD ST,Vx` the sound timer, only `LD I` and `ADD I` the index, only `RND` the supply of random bytes; only the
ten instructions of the table of R24 `PC` after the fetch increment; only `HALT` and an instruction that raises a fault
the mode, and only the latter the fault record; and no general register changes but `VF` and the one named as
destination. That the parameters and the supply of random bytes are parts of the state is the model's choice (log
entries 1 and 7); the record, the causes and their places are the spec's own choice (decisions D7, D8, D11, D14, D18
and D19). -/
def Obligations.EachPartHasItsWriters : Prop :=
  ∀ (i : Instr) (s t : State), exec i s = .next t →
    SamePart .memory s t ∧ SamePart .keys s t ∧ SamePart .params s t ∧
    ((∀ x y n, i ≠ .drw x y n) → i ≠ .cls → SamePart .display s t) ∧
    ((∀ addr, i ≠ .call addr) → i ≠ .ret → SamePart .stack s t) ∧
    ((∀ x, i ≠ .ldDtVx x) → SamePart .delay s t) ∧
    ((∀ x, i ≠ .ldStVx x) → SamePart .sound s t) ∧
    ((∀ addr, i ≠ .ldI addr) → (∀ x, i ≠ .addI x) → SamePart .index s t) ∧
    ((∀ x kk, i ≠ .rnd x kk) → SamePart .draws s t) ∧
    ((∀ addr, i ≠ .jp addr) → (∀ addr, i ≠ .call addr) → i ≠ .ret → (∀ addr, i ≠ .jpV0 addr) →
      (∀ x kk, i ≠ .seImm x kk) → (∀ x kk, i ≠ .sneImm x kk) → (∀ x y, i ≠ .seReg x y) →
      (∀ x y, i ≠ .sneReg x y) → (∀ x, i ≠ .skp x) → (∀ x, i ≠ .sknp x) → SamePart .pc s t) ∧
    (i ≠ .halt → raises i s = none → SamePart .mode s t) ∧
    (raises i s = none → SamePart .faultRecord s t) ∧
    (∀ r, destination i ≠ some r → (r ≠ regVF ∨ writesFlag i = false) → t.readV r = s.readV r)

/-- No instruction but `SKP` and `SKNP` reads a key: run with any key changed, every other instruction answers the same,
with that key changed (R69, R32). Both runs of `RND` draw the same byte, from the same supply or by the same counter
(log entry 7), which is assumed and not a rule of the spec. -/
def Obligations.KeysAreReadByKeySkipsOnly : Prop :=
  ∀ (i : Instr) (s : State) (k : Fin 16) (b : Bool), (∀ x, i ≠ .skp x) → (∀ x, i ≠ .sknp x) →
    exec i (s.setKey k b) = mapNext (fun t => t.setKey k b) (exec i s)

/-- No instruction reads `ST`: whatever value it holds, an instruction answers the same but for `ST` itself (R31, R200). Both
runs of `RND` draw the same byte, from the same supply or by the same counter (log entry 7), which is assumed and not
a rule of the spec. -/
def Obligations.SoundTimerIsNeverRead : Prop :=
  ∀ (i : Instr) (s : State) (b : Byte),
    if (∃ x, i = .ldStVx x) then exec i (s.setSt b) = exec i s
    else exec i (s.setSt b) = mapNext (fun t => t.setSt b) (exec i s)

/-- Only `HALT` halts: a step of a Running machine ends Halted exactly when the word at `PC` is `0000` (R100, R221). -/
def Obligations.OnlyTheZeroWordHalts : Prop :=
  ∀ s t : State, s.mode = .running → step s = .next t → (t.mode = .halted ↔ Fetches s 0x0000#16)

/-- From every Running state that meets the invariant the step answers a next state, which is Running, Halted or Faulted
and meets the invariant: no word and no data ends a run in any other way (R15). -/
def Obligations.RunningMachineAlwaysSteps : Prop :=
  ∀ s : State, Inv s → s.mode = .running → ∃ t, step s = .next t ∧ Inv t

/-! ### Reset, the host, invariants -/

/-- What reset leaves by the spec's own words: every general register, every stack slot, `SP`, both timers and `PC` are
zero, `I` is zero and the machine is Running (the last two the spec marks as decision D16). Every launch leaves them
so, not only `State.reset`. -/
def Obligations.ResetLeavesTheSpecsValues : Prop :=
  ∀ (l : Launch) (s t : State), (launch l s = .next t ∨ t = State.reset) →
    (∀ r, t.readV r = 0#8) ∧ (∀ a ∈ t.stack, a = 0#16) ∧ t.sp = 0 ∧ t.dt = 0#8 ∧ t.st = 0#8 ∧ t.pc = 0#16 ∧
    t.i = 0#16 ∧ t.mode = .running

/-- A launch loads its image from address 0 on, byte for byte, takes its display, its parameters and its random bytes,
and leaves the keys to the host. That memory and display come from the launch the spec marks as its own choice
(decision D16). Zero beyond the image (recommended by R211), parameters set by a launch, the kept keys, and the bytes of
`RND` as a list of the launch (R142) are the model's choices (log entries 4, 1, 5 and 7). -/
def Obligations.LaunchLoadsTheImage : Prop :=
  ∀ (l : Launch) (s t : State), launch l s = .next t →
    (∀ k b, l.image[k]? = some b → Memory.read t.mem k = b) ∧
    (∀ k, l.image.length ≤ k → Memory.read t.mem k = 0#8) ∧
    t.disp = l.display ∧ t.memSize = l.params.memSize ∧ t.stackDepth = l.params.stackDepth ∧
    t.collisionRule = l.params.collisionRule ∧ t.draws = l.draws ∧ SamePart .keys s t

/-- A launch answers a next state exactly for the configurations the model accepts: 4096 to 65532 bytes of memory, at
least one stack slot, and an image that fits. -/
def Obligations.LaunchAcceptsTheAllowedConfigurations : Prop :=
  ∀ (l : Launch) (s : State),
    (∃ t, hostMove (.resetWith l) s = .next t) ↔
      4096 ≤ l.params.memSize ∧ l.params.memSize ≤ 65532 ∧ 1 ≤ l.params.stackDepth ∧
      l.image.length ≤ l.params.memSize

/-- A move of the host other than a CPU tick and a reset always succeeds and changes nothing but, for a timer tick, the
timers, and, for a key change, the one key. The spec marks the closed list of moves as its own choice (decision
D22). -/
def Obligations.HostMovesTouchTimersAndKeysOnly : Prop :=
  ∀ (m : HostMove) (s : State), m ≠ .cpuTick → (∀ l, m ≠ .resetWith l) →
    ∃ t, hostMove m s = .next t ∧ SameExcept [.delay, .sound, .keys] s t ∧
      (m ≠ .timerTick → SamePart .delay s t ∧ SamePart .sound s t) ∧
      ((∀ k b, m ≠ .keyChange k b) → SamePart .keys s t) ∧
      (∀ k b, m = .keyChange k b → t.keyRead k = b ∧ ∀ q, q ≠ k → t.keyRead q = s.keyRead q)

/-- From one reset to the next no schedule of host moves changes a byte of memory or a parameter. The spec derives that
no instruction stores (R55) and marks the host's restraint as its own choice (decision D22). -/
def Obligations.MemoryIsConstantDuringARun : Prop :=
  ∀ (ms : List HostMove) (s t : State), (∀ l, HostMove.resetWith l ∉ ms) → runMoves ms s = .next t →
    SamePart .memory s t ∧ SamePart .params s t ∧ t.stackDepth = s.stackDepth

/-- The state after reset meets the invariant, with the model's own choices of log entries 1, 2 and 4 in it. -/
def Obligations.InvariantHoldsAtReset : Prop := Inv State.reset

/-- Every step keeps the invariant: memory canonical and inside its size, `SP` at most `STACK_DEPTH`, return addresses
and `PC` within the bounds of R27 (which the spec derives), and a recorded cause in a Faulted machine. -/
def Obligations.StepKeepsTheInvariant : Prop :=
  ∀ s t : State, Inv s → step s = .next t → Inv t

/-- Every schedule of host moves keeps the invariant, a reset with any launch among them. The spec marks the closed list
of moves and the launch as its own choices (decisions D22 and D16). -/
def Obligations.SchedulesKeepTheInvariant : Prop :=
  ∀ (ms : List HostMove) (s t : State), Inv s → runMoves ms s = .next t → Inv t

/-- The canonical form is one for each memory: two canonical memories that read the same at every address are equal. -/
def Obligations.CanonicalMemoryIsUnique : Prop :=
  ∀ m m' : Memory, Memory.wf m = true → Memory.wf m' = true →
    (∀ a, Memory.read m a = Memory.read m' a) → m = m'
end

