-- ==== Sys2Proof/Laws/Decode.lean ====
section
/-! SUPPORT. The fields of a word as numbers, the fields of the words the encoder builds, and the bytes of a word. -/

namespace Sys2Proof

theorem fieldC_toNat (w : Word) : (fieldC w).toNat = w.toNat / 4096 := by
  have := w.isLt
  simp [fieldC, Nat.shiftRight_eq_div_pow]; omega

theorem fieldX_val (w : Word) : (regOfNibble (fieldX w)).val = w.toNat / 256 % 16 := by
  simp [fieldX, regOfNibble, Nat.shiftRight_eq_div_pow]

theorem fieldY_val (w : Word) : (regOfNibble (fieldY w)).val = w.toNat / 16 % 16 := by
  simp [fieldY, regOfNibble, Nat.shiftRight_eq_div_pow]

theorem fieldN_toNat (w : Word) : (fieldN w).toNat = w.toNat % 16 := by
  simp [fieldN]

theorem fieldKK_toNat (w : Word) : (fieldKK w).toNat = w.toNat % 256 := by
  simp [fieldKK]

theorem fieldAddr_toNat (w : Word) : (fieldAddr w).toNat = w.toNat % 4096 := by
  simp [fieldAddr]

theorem wordA_toNat (c : Nibble) (a : Addr12) : (wordA c a).toNat = c.toNat * 4096 + a.toNat := by
  have := c.isLt; have := a.isLt
  simp [wordA]; omega

theorem wordXK_toNat (c : Nibble) (x : Reg) (kk : Byte) :
    (wordXK c x kk).toNat = c.toNat * 4096 + x.val * 256 + kk.toNat := by
  have := c.isLt; have := x.isLt; have := kk.isLt
  simp [wordXK]; omega

theorem wordXYN_toNat (c : Nibble) (x y : Reg) (n : Nibble) :
    (wordXYN c x y n).toNat = c.toNat * 4096 + x.val * 256 + y.val * 16 + n.toNat := by
  have := c.isLt; have := x.isLt; have := y.isLt; have := n.isLt
  simp [wordXYN]; omega

theorem wordOfBytes_toNat (hi lo : Byte) : (wordOfBytes hi lo).toNat = hi.toNat * 256 + lo.toNat := by
  have := hi.isLt; have := lo.isLt
  simp [wordOfBytes]; omega

@[simp] theorem fieldC_wordA (c : Nibble) (a : Addr12) : fieldC (wordA c a) = c := by
  have := a.isLt
  apply BitVec.eq_of_toNat_eq; rw [fieldC_toNat, wordA_toNat]; omega

@[simp] theorem fieldAddr_wordA (c : Nibble) (a : Addr12) : fieldAddr (wordA c a) = a := by
  have := a.isLt
  apply BitVec.eq_of_toNat_eq; rw [fieldAddr_toNat, wordA_toNat]; omega

@[simp] theorem fieldC_wordXK (c : Nibble) (x : Reg) (kk : Byte) : fieldC (wordXK c x kk) = c := by
  have := x.isLt; have := kk.isLt
  apply BitVec.eq_of_toNat_eq; rw [fieldC_toNat, wordXK_toNat]; omega

@[simp] theorem fieldX_wordXK (c : Nibble) (x : Reg) (kk : Byte) :
    regOfNibble (fieldX (wordXK c x kk)) = x := by
  have := x.isLt; have := kk.isLt
  apply Fin.ext; rw [fieldX_val, wordXK_toNat]; omega

@[simp] theorem fieldKK_wordXK (c : Nibble) (x : Reg) (kk : Byte) : fieldKK (wordXK c x kk) = kk := by
  have := kk.isLt
  apply BitVec.eq_of_toNat_eq; rw [fieldKK_toNat, wordXK_toNat]; omega

@[simp] theorem fieldC_wordXYN (c : Nibble) (x y : Reg) (n : Nibble) : fieldC (wordXYN c x y n) = c := by
  have := x.isLt; have := y.isLt; have := n.isLt
  apply BitVec.eq_of_toNat_eq; rw [fieldC_toNat, wordXYN_toNat]; omega

@[simp] theorem fieldX_wordXYN (c : Nibble) (x y : Reg) (n : Nibble) :
    regOfNibble (fieldX (wordXYN c x y n)) = x := by
  have := x.isLt; have := y.isLt; have := n.isLt
  apply Fin.ext; rw [fieldX_val, wordXYN_toNat]; omega

@[simp] theorem fieldY_wordXYN (c : Nibble) (x y : Reg) (n : Nibble) :
    regOfNibble (fieldY (wordXYN c x y n)) = y := by
  have := y.isLt; have := n.isLt
  apply Fin.ext; rw [fieldY_val, wordXYN_toNat]; omega

@[simp] theorem fieldN_wordXYN (c : Nibble) (x y : Reg) (n : Nibble) : fieldN (wordXYN c x y n) = n := by
  have := n.isLt
  apply BitVec.eq_of_toNat_eq; rw [fieldN_toNat, wordXYN_toNat]; omega

theorem hiByte_toNat (w : Word) : (hiByte w).toNat = w.toNat / 256 := by
  have := w.isLt
  simp [hiByte, Nat.shiftRight_eq_div_pow]; omega

theorem loByte_toNat (w : Word) : (loByte w).toNat = w.toNat % 256 := by
  simp [loByte]

/-- A word split into its bytes and put together again. -/
@[simp] theorem wordOfBytes_hi_lo (w : Word) : wordOfBytes (hiByte w) (loByte w) = w := by
  apply BitVec.eq_of_toNat_eq; rw [wordOfBytes_toNat, hiByte_toNat, loByte_toNat]; omega

@[simp] theorem hiByte_wordOfBytes (hi lo : Byte) : hiByte (wordOfBytes hi lo) = hi := by
  have := lo.isLt
  apply BitVec.eq_of_toNat_eq; rw [hiByte_toNat, wordOfBytes_toNat]; omega

@[simp] theorem loByte_wordOfBytes (hi lo : Byte) : loByte (wordOfBytes hi lo) = lo := by
  have := lo.isLt
  apply BitVec.eq_of_toNat_eq; rw [loByte_toNat, wordOfBytes_toNat]; omega

end Sys2Proof
end

