-- ==== Sys2Proof/Laws/Display.lean ====
section
/-! SUPPORT. The laws of the display grid: a read after a write, the blank display, equality cell by cell, and what
one cell of a blit does. -/

namespace Sys2Proof.Machine

open Sys2Proof.Config (CollisionRule)

/-- Reading any cell after any write. -/
theorem Display.read_write (d : Display) (px qx : Fin 64) (py qy : Fin 32) (b : Bool) :
    Display.read (Display.write d px py b) qx qy = if qx = px ∧ qy = py then b else Display.read d qx qy := by
  simp only [Display.read, Display.write, Vector.getElem_set, Fin.ext_iff]
  by_cases hx : px.val = qx.val <;> by_cases hy : py.val = qy.val <;>
    simp [hx, hy, eq_comm]

@[simp] theorem Display.read_blank (px : Fin 64) (py : Fin 32) : Display.read Display.blank px py = false := by
  simp [Display.read, Display.blank]

/-- Two displays that read the same everywhere are equal. -/
theorem Display.ext_read (d e : Display) (h : ∀ px py, Display.read d px py = Display.read e px py) : d = e := by
  apply Vector.ext
  intro i hi
  apply Vector.ext
  intro j hj
  exact h ⟨i, hi⟩ ⟨j, hj⟩

/-- What one cell of a blit does to the display: the cell under a 1 bit is flipped, every other cell is kept. -/
theorem blitCell_read (rule : CollisionRule) (px qx : Fin 64) (py qy : Fin 32) (bit : Bool) (acc : Display × Bool) :
    Display.read (blitCell rule px py bit acc).1 qx qy =
      (Display.read acc.1 qx qy ^^ (bit && decide (qx = px ∧ qy = py))) := by
  unfold blitCell
  cases bit
  · simp
  · simp only [if_true, Display.read_write]
    split_ifs with h
    · obtain ⟨rfl, rfl⟩ := h; simp
    · simp [h]

/-- What one cell of a blit does to the flag. -/
theorem blitCell_flag (rule : CollisionRule) (px : Fin 64) (py : Fin 32) (bit : Bool) (acc : Display × Bool) :
    (blitCell rule px py bit acc).2 = (acc.2 || collides rule bit (Display.read acc.1 px py)) := rfl

end Sys2Proof.Machine
end

