-- ==== Sys2Proof/Laws/Memory.lean ====
section
/-! SUPPORT. The laws of memory: a read after a write, and that every memory operation keeps the canonical form and
stays inside its bound. -/

namespace Sys2Proof.Machine

@[simp] theorem Memory.read_nil (a : Nat) : Memory.read [] a = Memory.unlisted := rfl

theorem Memory.read_cons (k : Nat) (b : Byte) (rest : Memory) (a : Nat) :
    Memory.read ((k, b) :: rest) a = if a = k then b else Memory.read rest a := rfl

/-- An address below every listed one reads as an unlisted address. -/
theorem Memory.read_below (m : Memory) (a : Nat) (h : ∀ c ∈ m, a < c.1) : Memory.read m a = Memory.unlisted := by
  induction m with
  | nil => rfl
  | cons c rest ih =>
    have hc := h c (by simp)
    rw [Memory.read_cons, if_neg (by omega)]
    exact ih fun d hd => h d (by simp [hd])

/-- The canonical form, entry by entry. -/
theorem Memory.wf_cons (k : Nat) (b : Byte) (rest : Memory) :
    Memory.wf ((k, b) :: rest) = true ↔
      b ≠ Memory.unlisted ∧ (∀ c ∈ rest, k < c.1) ∧ Memory.wf rest = true := by
  simp [Memory.wf, and_assoc]

theorem Memory.read_write_same (m : Memory) (a : Nat) (b : Byte) (h : Memory.wf m = true) :
    Memory.read (Memory.write m a b) a = b := by
  induction m with
  | nil => by_cases hb : b = Memory.unlisted <;> simp [Memory.write, Memory.read_cons, hb]
  | cons c rest ih =>
    obtain ⟨k, d⟩ := c
    obtain ⟨-, hk, hr⟩ := (Memory.wf_cons k d rest).1 h
    rw [Memory.write]
    split_ifs with h1 h2 h3 h4
    · rw [Memory.read_below _ _ (by
        intro c hc
        rcases List.mem_cons.1 hc with rfl | hc
        · exact h1
        · exact lt_trans h1 (hk c hc)), h2]
    · simp [Memory.read_cons]
    · rw [Memory.read_below _ _ (by rw [h3]; exact hk), h4]
    · simp [Memory.read_cons]
    · rw [Memory.read_cons, if_neg h3, ih hr]

theorem Memory.read_write_other (m : Memory) (a q : Nat) (b : Byte) (hq : q ≠ a) :
    Memory.read (Memory.write m a b) q = Memory.read m q := by
  induction m with
  | nil => by_cases hb : b = Memory.unlisted <;> simp [Memory.write, Memory.read_cons, hb, hq]
  | cons c rest ih =>
    obtain ⟨k, d⟩ := c
    rw [Memory.write]
    split_ifs with h1 h2 h3 h4
    · rfl
    · rw [Memory.read_cons, if_neg hq]
    · rw [Memory.read_cons, if_neg (by omega)]
    · rw [Memory.read_cons, Memory.read_cons, if_neg hq, if_neg (by omega)]
    · rw [Memory.read_cons, Memory.read_cons, ih]

/-- Every address listed after a write is the one written or was listed before. -/
theorem Memory.mem_write (m : Memory) (a : Nat) (b : Byte) (c : Host.Cell) (h : c ∈ Memory.write m a b) :
    c.1 = a ∨ c ∈ m := by
  induction m with
  | nil =>
    rw [Memory.write] at h
    split_ifs at h
    · simp at h
    · simp at h; simp [h]
  | cons d rest ih =>
    obtain ⟨k, d⟩ := d
    rw [Memory.write] at h
    split_ifs at h
    · exact .inr h
    · rcases List.mem_cons.1 h with rfl | h
      · exact .inl rfl
      · exact .inr h
    · exact .inr (by simp [h])
    · rcases List.mem_cons.1 h with rfl | h
      · exact .inl rfl
      · exact .inr (by simp [h])
    · rcases List.mem_cons.1 h with rfl | h
      · exact .inr (by simp)
      · rcases ih h with h | h
        · exact .inl h
        · exact .inr (by simp [h])

/-- A write keeps the canonical form. -/
theorem Memory.wf_write (m : Memory) (a : Nat) (b : Byte) (h : Memory.wf m = true) :
    Memory.wf (Memory.write m a b) = true := by
  induction m with
  | nil =>
    rw [Memory.write]
    split_ifs with hb
    · rfl
    · simp [Memory.wf, hb]
  | cons c rest ih =>
    obtain ⟨k, d⟩ := c
    obtain ⟨hd, hk, hr⟩ := (Memory.wf_cons k d rest).1 h
    rw [Memory.write]
    split_ifs with h1 h2 h3 h4
    · exact h
    · refine (Memory.wf_cons _ _ _).2 ⟨h2, fun c hc => ?_, h⟩
      rcases List.mem_cons.1 hc with rfl | hc
      · exact h1
      · exact lt_trans h1 (hk c hc)
    · exact hr
    · exact (Memory.wf_cons _ _ _).2 ⟨h4, by rw [h3]; exact hk, hr⟩
    · refine (Memory.wf_cons _ _ _).2 ⟨hd, fun c hc => ?_, ih hr⟩
      rcases Memory.mem_write rest a b c hc with hc | hc
      · omega
      · exact hk c hc

/-- Loading an image keeps the canonical form. -/
theorem Memory.wf_load (m : Memory) (a : Nat) (bs : List Byte) (h : Memory.wf m = true) :
    Memory.wf (Memory.load m a bs) = true := by
  induction bs generalizing m a with
  | nil => exact h
  | cons b rest ih => exact ih _ _ (Memory.wf_write m a b h)

/-- Loading an image lists no address beyond the image. -/
theorem Memory.mem_load (m : Memory) (a : Nat) (bs : List Byte) (c : Host.Cell) (h : c ∈ Memory.load m a bs) :
    (a ≤ c.1 ∧ c.1 < a + bs.length) ∨ c ∈ m := by
  induction bs generalizing m a with
  | nil => exact .inr h
  | cons b rest ih =>
    rcases ih _ _ h with h | h
    · exact .inl ⟨by omega, by simp; omega⟩
    · rcases Memory.mem_write m a b c h with h | h
      · exact .inl ⟨by omega, by simp [h]⟩
      · exact .inr h

/-- Loading an image leaves every address below it alone. -/
theorem Memory.read_load_below (m : Memory) (a : Nat) (bs : List Byte) (q : Nat) (h : q < a) :
    Memory.read (Memory.load m a bs) q = Memory.read m q := by
  induction bs generalizing m a with
  | nil => rfl
  | cons b rest ih =>
    rw [Memory.load, ih _ _ (by omega), Memory.read_write_other _ _ _ _ (by omega)]

/-- What `MemWrite` answers: the written byte at its address, every other byte as it was, the canonical form kept. -/
theorem State.memWrite_spec (s t : State) (a : Nat) (b : Byte) (hw : Memory.wf s.mem = true)
    (h : s.memWrite a b = some t) :
    a < s.memSize ∧ Memory.wf t.mem = true ∧
      ∀ q, Memory.read t.mem q = if q = a then b else Memory.read s.mem q := by
  unfold State.memWrite at h
  split at h
  · cases h
    refine ⟨‹_›, Memory.wf_write _ _ _ hw, fun q => ?_⟩
    split_ifs with hq
    · rw [hq]; exact Memory.read_write_same _ _ _ hw
    · exact Memory.read_write_other _ _ _ _ hq
  · cases h

/-- The memory of `State.reset` has the canonical form. -/
theorem Memory.wf_reset : Memory.wf State.reset.mem = true := rfl

/-- A launch's memory has the canonical form. -/
theorem Memory.wf_launch (l : Launch) (s : State) : Memory.wf (launchState l s).mem = true :=
  Memory.wf_load [] 0 l.image rfl

/-- Placing a word at the fetch address keeps the canonical form. -/
theorem Memory.wf_withFetchWord (s : State) (nbits w : Nat) (h : Memory.wf s.mem = true) :
    Memory.wf (s.withFetchWord nbits w).mem = true :=
  Memory.wf_write _ _ _ (Memory.wf_write _ _ _ h)

end Sys2Proof.Machine
end

