-- ==== Sys2Proof/Laws/State.lean ====
section
/-! SUPPORT. One lemma for each field of the state under each named update of Machine/Ops.lean, so that no proof
unfolds a record update. -/

namespace Sys2Proof.Machine

@[simp] theorem State.writeV_v (s : State) (r : Reg) (b : Byte) : (s.writeV r b).v = s.v.set r.val b := rfl
@[simp] theorem State.writeV_pc (s : State) (r : Reg) (b : Byte) : (s.writeV r b).pc = s.pc := rfl
@[simp] theorem State.writeV_i (s : State) (r : Reg) (b : Byte) : (s.writeV r b).i = s.i := rfl
@[simp] theorem State.writeV_sp (s : State) (r : Reg) (b : Byte) : (s.writeV r b).sp = s.sp := rfl
@[simp] theorem State.writeV_stack (s : State) (r : Reg) (b : Byte) : (s.writeV r b).stack = s.stack := rfl
@[simp] theorem State.writeV_dt (s : State) (r : Reg) (b : Byte) : (s.writeV r b).dt = s.dt := rfl
@[simp] theorem State.writeV_st (s : State) (r : Reg) (b : Byte) : (s.writeV r b).st = s.st := rfl
@[simp] theorem State.writeV_keys (s : State) (r : Reg) (b : Byte) : (s.writeV r b).keys = s.keys := rfl
@[simp] theorem State.writeV_mode (s : State) (r : Reg) (b : Byte) : (s.writeV r b).mode = s.mode := rfl
@[simp] theorem State.writeV_faultCause (s : State) (r : Reg) (b : Byte) : (s.writeV r b).faultCause = s.faultCause := rfl
@[simp] theorem State.writeV_faultWord (s : State) (r : Reg) (b : Byte) : (s.writeV r b).faultWord = s.faultWord := rfl
@[simp] theorem State.writeV_faultAddr (s : State) (r : Reg) (b : Byte) : (s.writeV r b).faultAddr = s.faultAddr := rfl
@[simp] theorem State.writeV_mem (s : State) (r : Reg) (b : Byte) : (s.writeV r b).mem = s.mem := rfl
@[simp] theorem State.writeV_disp (s : State) (r : Reg) (b : Byte) : (s.writeV r b).disp = s.disp := rfl
@[simp] theorem State.writeV_memSize (s : State) (r : Reg) (b : Byte) : (s.writeV r b).memSize = s.memSize := rfl
@[simp] theorem State.writeV_collisionRule (s : State) (r : Reg) (b : Byte) : (s.writeV r b).collisionRule = s.collisionRule := rfl
@[simp] theorem State.writeV_draws (s : State) (r : Reg) (b : Byte) : (s.writeV r b).draws = s.draws := rfl
@[simp] theorem State.writeV_drawIndex (s : State) (r : Reg) (b : Byte) : (s.writeV r b).drawIndex = s.drawIndex := rfl

@[simp] theorem State.writeResultFlag_v (s : State) (x : Reg) (r : Byte × Bool) : (s.writeResultFlag x r).v = (s.v.set x.val r.1).set 15 (flagByte r.2) := rfl
@[simp] theorem State.writeResultFlag_pc (s : State) (x : Reg) (r : Byte × Bool) : (s.writeResultFlag x r).pc = s.pc := rfl
@[simp] theorem State.writeResultFlag_i (s : State) (x : Reg) (r : Byte × Bool) : (s.writeResultFlag x r).i = s.i := rfl
@[simp] theorem State.writeResultFlag_sp (s : State) (x : Reg) (r : Byte × Bool) : (s.writeResultFlag x r).sp = s.sp := rfl
@[simp] theorem State.writeResultFlag_stack (s : State) (x : Reg) (r : Byte × Bool) : (s.writeResultFlag x r).stack = s.stack := rfl
@[simp] theorem State.writeResultFlag_dt (s : State) (x : Reg) (r : Byte × Bool) : (s.writeResultFlag x r).dt = s.dt := rfl
@[simp] theorem State.writeResultFlag_st (s : State) (x : Reg) (r : Byte × Bool) : (s.writeResultFlag x r).st = s.st := rfl
@[simp] theorem State.writeResultFlag_keys (s : State) (x : Reg) (r : Byte × Bool) : (s.writeResultFlag x r).keys = s.keys := rfl
@[simp] theorem State.writeResultFlag_mode (s : State) (x : Reg) (r : Byte × Bool) : (s.writeResultFlag x r).mode = s.mode := rfl
@[simp] theorem State.writeResultFlag_faultCause (s : State) (x : Reg) (r : Byte × Bool) : (s.writeResultFlag x r).faultCause = s.faultCause := rfl
@[simp] theorem State.writeResultFlag_faultWord (s : State) (x : Reg) (r : Byte × Bool) : (s.writeResultFlag x r).faultWord = s.faultWord := rfl
@[simp] theorem State.writeResultFlag_faultAddr (s : State) (x : Reg) (r : Byte × Bool) : (s.writeResultFlag x r).faultAddr = s.faultAddr := rfl
@[simp] theorem State.writeResultFlag_mem (s : State) (x : Reg) (r : Byte × Bool) : (s.writeResultFlag x r).mem = s.mem := rfl
@[simp] theorem State.writeResultFlag_disp (s : State) (x : Reg) (r : Byte × Bool) : (s.writeResultFlag x r).disp = s.disp := rfl
@[simp] theorem State.writeResultFlag_memSize (s : State) (x : Reg) (r : Byte × Bool) : (s.writeResultFlag x r).memSize = s.memSize := rfl
@[simp] theorem State.writeResultFlag_collisionRule (s : State) (x : Reg) (r : Byte × Bool) : (s.writeResultFlag x r).collisionRule = s.collisionRule := rfl
@[simp] theorem State.writeResultFlag_draws (s : State) (x : Reg) (r : Byte × Bool) : (s.writeResultFlag x r).draws = s.draws := rfl
@[simp] theorem State.writeResultFlag_drawIndex (s : State) (x : Reg) (r : Byte × Bool) : (s.writeResultFlag x r).drawIndex = s.drawIndex := rfl

@[simp] theorem State.setPc_v (s : State) (a : Word) : (s.setPc a).v = s.v := rfl
@[simp] theorem State.setPc_pc (s : State) (a : Word) : (s.setPc a).pc = a := rfl
@[simp] theorem State.setPc_i (s : State) (a : Word) : (s.setPc a).i = s.i := rfl
@[simp] theorem State.setPc_sp (s : State) (a : Word) : (s.setPc a).sp = s.sp := rfl
@[simp] theorem State.setPc_stack (s : State) (a : Word) : (s.setPc a).stack = s.stack := rfl
@[simp] theorem State.setPc_dt (s : State) (a : Word) : (s.setPc a).dt = s.dt := rfl
@[simp] theorem State.setPc_st (s : State) (a : Word) : (s.setPc a).st = s.st := rfl
@[simp] theorem State.setPc_keys (s : State) (a : Word) : (s.setPc a).keys = s.keys := rfl
@[simp] theorem State.setPc_mode (s : State) (a : Word) : (s.setPc a).mode = s.mode := rfl
@[simp] theorem State.setPc_faultCause (s : State) (a : Word) : (s.setPc a).faultCause = s.faultCause := rfl
@[simp] theorem State.setPc_faultWord (s : State) (a : Word) : (s.setPc a).faultWord = s.faultWord := rfl
@[simp] theorem State.setPc_faultAddr (s : State) (a : Word) : (s.setPc a).faultAddr = s.faultAddr := rfl
@[simp] theorem State.setPc_mem (s : State) (a : Word) : (s.setPc a).mem = s.mem := rfl
@[simp] theorem State.setPc_disp (s : State) (a : Word) : (s.setPc a).disp = s.disp := rfl
@[simp] theorem State.setPc_memSize (s : State) (a : Word) : (s.setPc a).memSize = s.memSize := rfl
@[simp] theorem State.setPc_collisionRule (s : State) (a : Word) : (s.setPc a).collisionRule = s.collisionRule := rfl
@[simp] theorem State.setPc_draws (s : State) (a : Word) : (s.setPc a).draws = s.draws := rfl
@[simp] theorem State.setPc_drawIndex (s : State) (a : Word) : (s.setPc a).drawIndex = s.drawIndex := rfl

@[simp] theorem State.skip_v (s : State) : (s.skip).v = s.v := rfl
@[simp] theorem State.skip_pc (s : State) : (s.skip).pc = s.pc + 2#16 := rfl
@[simp] theorem State.skip_i (s : State) : (s.skip).i = s.i := rfl
@[simp] theorem State.skip_sp (s : State) : (s.skip).sp = s.sp := rfl
@[simp] theorem State.skip_stack (s : State) : (s.skip).stack = s.stack := rfl
@[simp] theorem State.skip_dt (s : State) : (s.skip).dt = s.dt := rfl
@[simp] theorem State.skip_st (s : State) : (s.skip).st = s.st := rfl
@[simp] theorem State.skip_keys (s : State) : (s.skip).keys = s.keys := rfl
@[simp] theorem State.skip_mode (s : State) : (s.skip).mode = s.mode := rfl
@[simp] theorem State.skip_faultCause (s : State) : (s.skip).faultCause = s.faultCause := rfl
@[simp] theorem State.skip_faultWord (s : State) : (s.skip).faultWord = s.faultWord := rfl
@[simp] theorem State.skip_faultAddr (s : State) : (s.skip).faultAddr = s.faultAddr := rfl
@[simp] theorem State.skip_mem (s : State) : (s.skip).mem = s.mem := rfl
@[simp] theorem State.skip_disp (s : State) : (s.skip).disp = s.disp := rfl
@[simp] theorem State.skip_memSize (s : State) : (s.skip).memSize = s.memSize := rfl
@[simp] theorem State.skip_collisionRule (s : State) : (s.skip).collisionRule = s.collisionRule := rfl
@[simp] theorem State.skip_draws (s : State) : (s.skip).draws = s.draws := rfl
@[simp] theorem State.skip_drawIndex (s : State) : (s.skip).drawIndex = s.drawIndex := rfl

@[simp] theorem State.advance_v (s : State) : (s.advance).v = s.v := rfl
@[simp] theorem State.advance_pc (s : State) : (s.advance).pc = s.pc + 2#16 := rfl
@[simp] theorem State.advance_i (s : State) : (s.advance).i = s.i := rfl
@[simp] theorem State.advance_sp (s : State) : (s.advance).sp = s.sp := rfl
@[simp] theorem State.advance_stack (s : State) : (s.advance).stack = s.stack := rfl
@[simp] theorem State.advance_dt (s : State) : (s.advance).dt = s.dt := rfl
@[simp] theorem State.advance_st (s : State) : (s.advance).st = s.st := rfl
@[simp] theorem State.advance_keys (s : State) : (s.advance).keys = s.keys := rfl
@[simp] theorem State.advance_mode (s : State) : (s.advance).mode = s.mode := rfl
@[simp] theorem State.advance_faultCause (s : State) : (s.advance).faultCause = s.faultCause := rfl
@[simp] theorem State.advance_faultWord (s : State) : (s.advance).faultWord = s.faultWord := rfl
@[simp] theorem State.advance_faultAddr (s : State) : (s.advance).faultAddr = s.faultAddr := rfl
@[simp] theorem State.advance_mem (s : State) : (s.advance).mem = s.mem := rfl
@[simp] theorem State.advance_disp (s : State) : (s.advance).disp = s.disp := rfl
@[simp] theorem State.advance_memSize (s : State) : (s.advance).memSize = s.memSize := rfl
@[simp] theorem State.advance_collisionRule (s : State) : (s.advance).collisionRule = s.collisionRule := rfl
@[simp] theorem State.advance_draws (s : State) : (s.advance).draws = s.draws := rfl
@[simp] theorem State.advance_drawIndex (s : State) : (s.advance).drawIndex = s.drawIndex := rfl

@[simp] theorem State.setI_v (s : State) (a : Word) : (s.setI a).v = s.v := rfl
@[simp] theorem State.setI_pc (s : State) (a : Word) : (s.setI a).pc = s.pc := rfl
@[simp] theorem State.setI_i (s : State) (a : Word) : (s.setI a).i = a := rfl
@[simp] theorem State.setI_sp (s : State) (a : Word) : (s.setI a).sp = s.sp := rfl
@[simp] theorem State.setI_stack (s : State) (a : Word) : (s.setI a).stack = s.stack := rfl
@[simp] theorem State.setI_dt (s : State) (a : Word) : (s.setI a).dt = s.dt := rfl
@[simp] theorem State.setI_st (s : State) (a : Word) : (s.setI a).st = s.st := rfl
@[simp] theorem State.setI_keys (s : State) (a : Word) : (s.setI a).keys = s.keys := rfl
@[simp] theorem State.setI_mode (s : State) (a : Word) : (s.setI a).mode = s.mode := rfl
@[simp] theorem State.setI_faultCause (s : State) (a : Word) : (s.setI a).faultCause = s.faultCause := rfl
@[simp] theorem State.setI_faultWord (s : State) (a : Word) : (s.setI a).faultWord = s.faultWord := rfl
@[simp] theorem State.setI_faultAddr (s : State) (a : Word) : (s.setI a).faultAddr = s.faultAddr := rfl
@[simp] theorem State.setI_mem (s : State) (a : Word) : (s.setI a).mem = s.mem := rfl
@[simp] theorem State.setI_disp (s : State) (a : Word) : (s.setI a).disp = s.disp := rfl
@[simp] theorem State.setI_memSize (s : State) (a : Word) : (s.setI a).memSize = s.memSize := rfl
@[simp] theorem State.setI_collisionRule (s : State) (a : Word) : (s.setI a).collisionRule = s.collisionRule := rfl
@[simp] theorem State.setI_draws (s : State) (a : Word) : (s.setI a).draws = s.draws := rfl
@[simp] theorem State.setI_drawIndex (s : State) (a : Word) : (s.setI a).drawIndex = s.drawIndex := rfl

@[simp] theorem State.setDt_v (s : State) (b : Byte) : (s.setDt b).v = s.v := rfl
@[simp] theorem State.setDt_pc (s : State) (b : Byte) : (s.setDt b).pc = s.pc := rfl
@[simp] theorem State.setDt_i (s : State) (b : Byte) : (s.setDt b).i = s.i := rfl
@[simp] theorem State.setDt_sp (s : State) (b : Byte) : (s.setDt b).sp = s.sp := rfl
@[simp] theorem State.setDt_stack (s : State) (b : Byte) : (s.setDt b).stack = s.stack := rfl
@[simp] theorem State.setDt_dt (s : State) (b : Byte) : (s.setDt b).dt = b := rfl
@[simp] theorem State.setDt_st (s : State) (b : Byte) : (s.setDt b).st = s.st := rfl
@[simp] theorem State.setDt_keys (s : State) (b : Byte) : (s.setDt b).keys = s.keys := rfl
@[simp] theorem State.setDt_mode (s : State) (b : Byte) : (s.setDt b).mode = s.mode := rfl
@[simp] theorem State.setDt_faultCause (s : State) (b : Byte) : (s.setDt b).faultCause = s.faultCause := rfl
@[simp] theorem State.setDt_faultWord (s : State) (b : Byte) : (s.setDt b).faultWord = s.faultWord := rfl
@[simp] theorem State.setDt_faultAddr (s : State) (b : Byte) : (s.setDt b).faultAddr = s.faultAddr := rfl
@[simp] theorem State.setDt_mem (s : State) (b : Byte) : (s.setDt b).mem = s.mem := rfl
@[simp] theorem State.setDt_disp (s : State) (b : Byte) : (s.setDt b).disp = s.disp := rfl
@[simp] theorem State.setDt_memSize (s : State) (b : Byte) : (s.setDt b).memSize = s.memSize := rfl
@[simp] theorem State.setDt_collisionRule (s : State) (b : Byte) : (s.setDt b).collisionRule = s.collisionRule := rfl
@[simp] theorem State.setDt_draws (s : State) (b : Byte) : (s.setDt b).draws = s.draws := rfl
@[simp] theorem State.setDt_drawIndex (s : State) (b : Byte) : (s.setDt b).drawIndex = s.drawIndex := rfl

@[simp] theorem State.setSt_v (s : State) (b : Byte) : (s.setSt b).v = s.v := rfl
@[simp] theorem State.setSt_pc (s : State) (b : Byte) : (s.setSt b).pc = s.pc := rfl
@[simp] theorem State.setSt_i (s : State) (b : Byte) : (s.setSt b).i = s.i := rfl
@[simp] theorem State.setSt_sp (s : State) (b : Byte) : (s.setSt b).sp = s.sp := rfl
@[simp] theorem State.setSt_stack (s : State) (b : Byte) : (s.setSt b).stack = s.stack := rfl
@[simp] theorem State.setSt_dt (s : State) (b : Byte) : (s.setSt b).dt = s.dt := rfl
@[simp] theorem State.setSt_st (s : State) (b : Byte) : (s.setSt b).st = b := rfl
@[simp] theorem State.setSt_keys (s : State) (b : Byte) : (s.setSt b).keys = s.keys := rfl
@[simp] theorem State.setSt_mode (s : State) (b : Byte) : (s.setSt b).mode = s.mode := rfl
@[simp] theorem State.setSt_faultCause (s : State) (b : Byte) : (s.setSt b).faultCause = s.faultCause := rfl
@[simp] theorem State.setSt_faultWord (s : State) (b : Byte) : (s.setSt b).faultWord = s.faultWord := rfl
@[simp] theorem State.setSt_faultAddr (s : State) (b : Byte) : (s.setSt b).faultAddr = s.faultAddr := rfl
@[simp] theorem State.setSt_mem (s : State) (b : Byte) : (s.setSt b).mem = s.mem := rfl
@[simp] theorem State.setSt_disp (s : State) (b : Byte) : (s.setSt b).disp = s.disp := rfl
@[simp] theorem State.setSt_memSize (s : State) (b : Byte) : (s.setSt b).memSize = s.memSize := rfl
@[simp] theorem State.setSt_collisionRule (s : State) (b : Byte) : (s.setSt b).collisionRule = s.collisionRule := rfl
@[simp] theorem State.setSt_draws (s : State) (b : Byte) : (s.setSt b).draws = s.draws := rfl
@[simp] theorem State.setSt_drawIndex (s : State) (b : Byte) : (s.setSt b).drawIndex = s.drawIndex := rfl

@[simp] theorem State.setDisp_v (s : State) (d : Display) : (s.setDisp d).v = s.v := rfl
@[simp] theorem State.setDisp_pc (s : State) (d : Display) : (s.setDisp d).pc = s.pc := rfl
@[simp] theorem State.setDisp_i (s : State) (d : Display) : (s.setDisp d).i = s.i := rfl
@[simp] theorem State.setDisp_sp (s : State) (d : Display) : (s.setDisp d).sp = s.sp := rfl
@[simp] theorem State.setDisp_stack (s : State) (d : Display) : (s.setDisp d).stack = s.stack := rfl
@[simp] theorem State.setDisp_dt (s : State) (d : Display) : (s.setDisp d).dt = s.dt := rfl
@[simp] theorem State.setDisp_st (s : State) (d : Display) : (s.setDisp d).st = s.st := rfl
@[simp] theorem State.setDisp_keys (s : State) (d : Display) : (s.setDisp d).keys = s.keys := rfl
@[simp] theorem State.setDisp_mode (s : State) (d : Display) : (s.setDisp d).mode = s.mode := rfl
@[simp] theorem State.setDisp_faultCause (s : State) (d : Display) : (s.setDisp d).faultCause = s.faultCause := rfl
@[simp] theorem State.setDisp_faultWord (s : State) (d : Display) : (s.setDisp d).faultWord = s.faultWord := rfl
@[simp] theorem State.setDisp_faultAddr (s : State) (d : Display) : (s.setDisp d).faultAddr = s.faultAddr := rfl
@[simp] theorem State.setDisp_mem (s : State) (d : Display) : (s.setDisp d).mem = s.mem := rfl
@[simp] theorem State.setDisp_disp (s : State) (d : Display) : (s.setDisp d).disp = d := rfl
@[simp] theorem State.setDisp_memSize (s : State) (d : Display) : (s.setDisp d).memSize = s.memSize := rfl
@[simp] theorem State.setDisp_collisionRule (s : State) (d : Display) : (s.setDisp d).collisionRule = s.collisionRule := rfl
@[simp] theorem State.setDisp_draws (s : State) (d : Display) : (s.setDisp d).draws = s.draws := rfl
@[simp] theorem State.setDisp_drawIndex (s : State) (d : Display) : (s.setDisp d).drawIndex = s.drawIndex := rfl

@[simp] theorem State.setKey_v (s : State) (k : Fin 16) (b : Bool) : (s.setKey k b).v = s.v := rfl
@[simp] theorem State.setKey_pc (s : State) (k : Fin 16) (b : Bool) : (s.setKey k b).pc = s.pc := rfl
@[simp] theorem State.setKey_i (s : State) (k : Fin 16) (b : Bool) : (s.setKey k b).i = s.i := rfl
@[simp] theorem State.setKey_sp (s : State) (k : Fin 16) (b : Bool) : (s.setKey k b).sp = s.sp := rfl
@[simp] theorem State.setKey_stack (s : State) (k : Fin 16) (b : Bool) : (s.setKey k b).stack = s.stack := rfl
@[simp] theorem State.setKey_dt (s : State) (k : Fin 16) (b : Bool) : (s.setKey k b).dt = s.dt := rfl
@[simp] theorem State.setKey_st (s : State) (k : Fin 16) (b : Bool) : (s.setKey k b).st = s.st := rfl
@[simp] theorem State.setKey_keys (s : State) (k : Fin 16) (b : Bool) : (s.setKey k b).keys = s.keys.set k.val b := rfl
@[simp] theorem State.setKey_mode (s : State) (k : Fin 16) (b : Bool) : (s.setKey k b).mode = s.mode := rfl
@[simp] theorem State.setKey_faultCause (s : State) (k : Fin 16) (b : Bool) : (s.setKey k b).faultCause = s.faultCause := rfl
@[simp] theorem State.setKey_faultWord (s : State) (k : Fin 16) (b : Bool) : (s.setKey k b).faultWord = s.faultWord := rfl
@[simp] theorem State.setKey_faultAddr (s : State) (k : Fin 16) (b : Bool) : (s.setKey k b).faultAddr = s.faultAddr := rfl
@[simp] theorem State.setKey_mem (s : State) (k : Fin 16) (b : Bool) : (s.setKey k b).mem = s.mem := rfl
@[simp] theorem State.setKey_disp (s : State) (k : Fin 16) (b : Bool) : (s.setKey k b).disp = s.disp := rfl
@[simp] theorem State.setKey_memSize (s : State) (k : Fin 16) (b : Bool) : (s.setKey k b).memSize = s.memSize := rfl
@[simp] theorem State.setKey_collisionRule (s : State) (k : Fin 16) (b : Bool) : (s.setKey k b).collisionRule = s.collisionRule := rfl
@[simp] theorem State.setKey_draws (s : State) (k : Fin 16) (b : Bool) : (s.setKey k b).draws = s.draws := rfl
@[simp] theorem State.setKey_drawIndex (s : State) (k : Fin 16) (b : Bool) : (s.setKey k b).drawIndex = s.drawIndex := rfl

@[simp] theorem State.push_v (s : State) (a : Word) : (s.push a).v = s.v := rfl
@[simp] theorem State.push_pc (s : State) (a : Word) : (s.push a).pc = s.pc := rfl
@[simp] theorem State.push_i (s : State) (a : Word) : (s.push a).i = s.i := rfl
@[simp] theorem State.push_sp (s : State) (a : Word) : (s.push a).sp = s.sp + 1 := rfl
@[simp] theorem State.push_stack (s : State) (a : Word) : (s.push a).stack = s.stack.set s.sp a := rfl
@[simp] theorem State.push_dt (s : State) (a : Word) : (s.push a).dt = s.dt := rfl
@[simp] theorem State.push_st (s : State) (a : Word) : (s.push a).st = s.st := rfl
@[simp] theorem State.push_keys (s : State) (a : Word) : (s.push a).keys = s.keys := rfl
@[simp] theorem State.push_mode (s : State) (a : Word) : (s.push a).mode = s.mode := rfl
@[simp] theorem State.push_faultCause (s : State) (a : Word) : (s.push a).faultCause = s.faultCause := rfl
@[simp] theorem State.push_faultWord (s : State) (a : Word) : (s.push a).faultWord = s.faultWord := rfl
@[simp] theorem State.push_faultAddr (s : State) (a : Word) : (s.push a).faultAddr = s.faultAddr := rfl
@[simp] theorem State.push_mem (s : State) (a : Word) : (s.push a).mem = s.mem := rfl
@[simp] theorem State.push_disp (s : State) (a : Word) : (s.push a).disp = s.disp := rfl
@[simp] theorem State.push_memSize (s : State) (a : Word) : (s.push a).memSize = s.memSize := rfl
@[simp] theorem State.push_collisionRule (s : State) (a : Word) : (s.push a).collisionRule = s.collisionRule := rfl
@[simp] theorem State.push_draws (s : State) (a : Word) : (s.push a).draws = s.draws := rfl
@[simp] theorem State.push_drawIndex (s : State) (a : Word) : (s.push a).drawIndex = s.drawIndex := rfl

@[simp] theorem State.pop_v (s : State) : (s.pop).v = s.v := rfl
@[simp] theorem State.pop_pc (s : State) : (s.pop).pc = s.pc := rfl
@[simp] theorem State.pop_i (s : State) : (s.pop).i = s.i := rfl
@[simp] theorem State.pop_sp (s : State) : (s.pop).sp = s.sp - 1 := rfl
@[simp] theorem State.pop_stack (s : State) : (s.pop).stack = s.stack := rfl
@[simp] theorem State.pop_dt (s : State) : (s.pop).dt = s.dt := rfl
@[simp] theorem State.pop_st (s : State) : (s.pop).st = s.st := rfl
@[simp] theorem State.pop_keys (s : State) : (s.pop).keys = s.keys := rfl
@[simp] theorem State.pop_mode (s : State) : (s.pop).mode = s.mode := rfl
@[simp] theorem State.pop_faultCause (s : State) : (s.pop).faultCause = s.faultCause := rfl
@[simp] theorem State.pop_faultWord (s : State) : (s.pop).faultWord = s.faultWord := rfl
@[simp] theorem State.pop_faultAddr (s : State) : (s.pop).faultAddr = s.faultAddr := rfl
@[simp] theorem State.pop_mem (s : State) : (s.pop).mem = s.mem := rfl
@[simp] theorem State.pop_disp (s : State) : (s.pop).disp = s.disp := rfl
@[simp] theorem State.pop_memSize (s : State) : (s.pop).memSize = s.memSize := rfl
@[simp] theorem State.pop_collisionRule (s : State) : (s.pop).collisionRule = s.collisionRule := rfl
@[simp] theorem State.pop_draws (s : State) : (s.pop).draws = s.draws := rfl
@[simp] theorem State.pop_drawIndex (s : State) : (s.pop).drawIndex = s.drawIndex := rfl

@[simp] theorem State.halt_v (s : State) : (s.halt).v = s.v := rfl
@[simp] theorem State.halt_pc (s : State) : (s.halt).pc = s.pc := rfl
@[simp] theorem State.halt_i (s : State) : (s.halt).i = s.i := rfl
@[simp] theorem State.halt_sp (s : State) : (s.halt).sp = s.sp := rfl
@[simp] theorem State.halt_stack (s : State) : (s.halt).stack = s.stack := rfl
@[simp] theorem State.halt_dt (s : State) : (s.halt).dt = s.dt := rfl
@[simp] theorem State.halt_st (s : State) : (s.halt).st = s.st := rfl
@[simp] theorem State.halt_keys (s : State) : (s.halt).keys = s.keys := rfl
@[simp] theorem State.halt_mode (s : State) : (s.halt).mode = .halted := rfl
@[simp] theorem State.halt_faultCause (s : State) : (s.halt).faultCause = s.faultCause := rfl
@[simp] theorem State.halt_faultWord (s : State) : (s.halt).faultWord = s.faultWord := rfl
@[simp] theorem State.halt_faultAddr (s : State) : (s.halt).faultAddr = s.faultAddr := rfl
@[simp] theorem State.halt_mem (s : State) : (s.halt).mem = s.mem := rfl
@[simp] theorem State.halt_disp (s : State) : (s.halt).disp = s.disp := rfl
@[simp] theorem State.halt_memSize (s : State) : (s.halt).memSize = s.memSize := rfl
@[simp] theorem State.halt_collisionRule (s : State) : (s.halt).collisionRule = s.collisionRule := rfl
@[simp] theorem State.halt_draws (s : State) : (s.halt).draws = s.draws := rfl
@[simp] theorem State.halt_drawIndex (s : State) : (s.halt).drawIndex = s.drawIndex := rfl

@[simp] theorem State.raise_v (s : State) (c : FaultCause) (w a : Word) : (s.raise c w a).v = s.v := rfl
@[simp] theorem State.raise_pc (s : State) (c : FaultCause) (w a : Word) : (s.raise c w a).pc = s.pc := rfl
@[simp] theorem State.raise_i (s : State) (c : FaultCause) (w a : Word) : (s.raise c w a).i = s.i := rfl
@[simp] theorem State.raise_sp (s : State) (c : FaultCause) (w a : Word) : (s.raise c w a).sp = s.sp := rfl
@[simp] theorem State.raise_stack (s : State) (c : FaultCause) (w a : Word) : (s.raise c w a).stack = s.stack := rfl
@[simp] theorem State.raise_dt (s : State) (c : FaultCause) (w a : Word) : (s.raise c w a).dt = s.dt := rfl
@[simp] theorem State.raise_st (s : State) (c : FaultCause) (w a : Word) : (s.raise c w a).st = s.st := rfl
@[simp] theorem State.raise_keys (s : State) (c : FaultCause) (w a : Word) : (s.raise c w a).keys = s.keys := rfl
@[simp] theorem State.raise_mode (s : State) (c : FaultCause) (w a : Word) : (s.raise c w a).mode = .faulted := rfl
@[simp] theorem State.raise_faultCause (s : State) (c : FaultCause) (w a : Word) : (s.raise c w a).faultCause = c.code := rfl
@[simp] theorem State.raise_faultWord (s : State) (c : FaultCause) (w a : Word) : (s.raise c w a).faultWord = w := rfl
@[simp] theorem State.raise_faultAddr (s : State) (c : FaultCause) (w a : Word) : (s.raise c w a).faultAddr = a := rfl
@[simp] theorem State.raise_mem (s : State) (c : FaultCause) (w a : Word) : (s.raise c w a).mem = s.mem := rfl
@[simp] theorem State.raise_disp (s : State) (c : FaultCause) (w a : Word) : (s.raise c w a).disp = s.disp := rfl
@[simp] theorem State.raise_memSize (s : State) (c : FaultCause) (w a : Word) : (s.raise c w a).memSize = s.memSize := rfl
@[simp] theorem State.raise_collisionRule (s : State) (c : FaultCause) (w a : Word) : (s.raise c w a).collisionRule = s.collisionRule := rfl
@[simp] theorem State.raise_draws (s : State) (c : FaultCause) (w a : Word) : (s.raise c w a).draws = s.draws := rfl
@[simp] theorem State.raise_drawIndex (s : State) (c : FaultCause) (w a : Word) : (s.raise c w a).drawIndex = s.drawIndex := rfl

@[simp] theorem State.raiseIn_v (s : State) (c : FaultCause) (ins : Instr) : (s.raiseIn c ins).v = s.v := rfl
@[simp] theorem State.raiseIn_pc (s : State) (c : FaultCause) (ins : Instr) : (s.raiseIn c ins).pc = s.pc := rfl
@[simp] theorem State.raiseIn_i (s : State) (c : FaultCause) (ins : Instr) : (s.raiseIn c ins).i = s.i := rfl
@[simp] theorem State.raiseIn_sp (s : State) (c : FaultCause) (ins : Instr) : (s.raiseIn c ins).sp = s.sp := rfl
@[simp] theorem State.raiseIn_stack (s : State) (c : FaultCause) (ins : Instr) : (s.raiseIn c ins).stack = s.stack := rfl
@[simp] theorem State.raiseIn_dt (s : State) (c : FaultCause) (ins : Instr) : (s.raiseIn c ins).dt = s.dt := rfl
@[simp] theorem State.raiseIn_st (s : State) (c : FaultCause) (ins : Instr) : (s.raiseIn c ins).st = s.st := rfl
@[simp] theorem State.raiseIn_keys (s : State) (c : FaultCause) (ins : Instr) : (s.raiseIn c ins).keys = s.keys := rfl
@[simp] theorem State.raiseIn_mode (s : State) (c : FaultCause) (ins : Instr) : (s.raiseIn c ins).mode = .faulted := rfl
@[simp] theorem State.raiseIn_faultCause (s : State) (c : FaultCause) (ins : Instr) : (s.raiseIn c ins).faultCause = c.code := rfl
@[simp] theorem State.raiseIn_faultWord (s : State) (c : FaultCause) (ins : Instr) : (s.raiseIn c ins).faultWord = encode ins := rfl
@[simp] theorem State.raiseIn_faultAddr (s : State) (c : FaultCause) (ins : Instr) : (s.raiseIn c ins).faultAddr = s.pc - 2#16 := rfl
@[simp] theorem State.raiseIn_mem (s : State) (c : FaultCause) (ins : Instr) : (s.raiseIn c ins).mem = s.mem := rfl
@[simp] theorem State.raiseIn_disp (s : State) (c : FaultCause) (ins : Instr) : (s.raiseIn c ins).disp = s.disp := rfl
@[simp] theorem State.raiseIn_memSize (s : State) (c : FaultCause) (ins : Instr) : (s.raiseIn c ins).memSize = s.memSize := rfl
@[simp] theorem State.raiseIn_collisionRule (s : State) (c : FaultCause) (ins : Instr) : (s.raiseIn c ins).collisionRule = s.collisionRule := rfl
@[simp] theorem State.raiseIn_draws (s : State) (c : FaultCause) (ins : Instr) : (s.raiseIn c ins).draws = s.draws := rfl
@[simp] theorem State.raiseIn_drawIndex (s : State) (c : FaultCause) (ins : Instr) : (s.raiseIn c ins).drawIndex = s.drawIndex := rfl

@[simp] theorem State.timerTick_v (s : State) : (s.timerTick).v = s.v := rfl
@[simp] theorem State.timerTick_pc (s : State) : (s.timerTick).pc = s.pc := rfl
@[simp] theorem State.timerTick_i (s : State) : (s.timerTick).i = s.i := rfl
@[simp] theorem State.timerTick_sp (s : State) : (s.timerTick).sp = s.sp := rfl
@[simp] theorem State.timerTick_stack (s : State) : (s.timerTick).stack = s.stack := rfl
@[simp] theorem State.timerTick_dt (s : State) : (s.timerTick).dt = tickTimer s.dt := rfl
@[simp] theorem State.timerTick_st (s : State) : (s.timerTick).st = tickTimer s.st := rfl
@[simp] theorem State.timerTick_keys (s : State) : (s.timerTick).keys = s.keys := rfl
@[simp] theorem State.timerTick_mode (s : State) : (s.timerTick).mode = s.mode := rfl
@[simp] theorem State.timerTick_faultCause (s : State) : (s.timerTick).faultCause = s.faultCause := rfl
@[simp] theorem State.timerTick_faultWord (s : State) : (s.timerTick).faultWord = s.faultWord := rfl
@[simp] theorem State.timerTick_faultAddr (s : State) : (s.timerTick).faultAddr = s.faultAddr := rfl
@[simp] theorem State.timerTick_mem (s : State) : (s.timerTick).mem = s.mem := rfl
@[simp] theorem State.timerTick_disp (s : State) : (s.timerTick).disp = s.disp := rfl
@[simp] theorem State.timerTick_memSize (s : State) : (s.timerTick).memSize = s.memSize := rfl
@[simp] theorem State.timerTick_collisionRule (s : State) : (s.timerTick).collisionRule = s.collisionRule := rfl
@[simp] theorem State.timerTick_draws (s : State) : (s.timerTick).draws = s.draws := rfl
@[simp] theorem State.timerTick_drawIndex (s : State) : (s.timerTick).drawIndex = s.drawIndex := rfl

@[simp] theorem State.randomByte_v (s : State) : s.randomByte.2.v = s.v := by
  unfold State.randomByte; split <;> rfl
@[simp] theorem State.randomByte_pc (s : State) : s.randomByte.2.pc = s.pc := by
  unfold State.randomByte; split <;> rfl
@[simp] theorem State.randomByte_i (s : State) : s.randomByte.2.i = s.i := by
  unfold State.randomByte; split <;> rfl
@[simp] theorem State.randomByte_sp (s : State) : s.randomByte.2.sp = s.sp := by
  unfold State.randomByte; split <;> rfl
@[simp] theorem State.randomByte_stack (s : State) : s.randomByte.2.stack = s.stack := by
  unfold State.randomByte; split <;> rfl
@[simp] theorem State.randomByte_dt (s : State) : s.randomByte.2.dt = s.dt := by
  unfold State.randomByte; split <;> rfl
@[simp] theorem State.randomByte_st (s : State) : s.randomByte.2.st = s.st := by
  unfold State.randomByte; split <;> rfl
@[simp] theorem State.randomByte_keys (s : State) : s.randomByte.2.keys = s.keys := by
  unfold State.randomByte; split <;> rfl
@[simp] theorem State.randomByte_mode (s : State) : s.randomByte.2.mode = s.mode := by
  unfold State.randomByte; split <;> rfl
@[simp] theorem State.randomByte_faultCause (s : State) : s.randomByte.2.faultCause = s.faultCause := by
  unfold State.randomByte; split <;> rfl
@[simp] theorem State.randomByte_faultWord (s : State) : s.randomByte.2.faultWord = s.faultWord := by
  unfold State.randomByte; split <;> rfl
@[simp] theorem State.randomByte_faultAddr (s : State) : s.randomByte.2.faultAddr = s.faultAddr := by
  unfold State.randomByte; split <;> rfl
@[simp] theorem State.randomByte_mem (s : State) : s.randomByte.2.mem = s.mem := by
  unfold State.randomByte; split <;> rfl
@[simp] theorem State.randomByte_disp (s : State) : s.randomByte.2.disp = s.disp := by
  unfold State.randomByte; split <;> rfl
@[simp] theorem State.randomByte_memSize (s : State) : s.randomByte.2.memSize = s.memSize := by
  unfold State.randomByte; split <;> rfl
@[simp] theorem State.randomByte_collisionRule (s : State) : s.randomByte.2.collisionRule = s.collisionRule := by
  unfold State.randomByte; split <;> rfl

theorem State.randomByte_supplied (s : State) (b : Byte) (rest : List Byte) (h : s.draws = b :: rest) :
    s.randomByte = (b, { s with draws := rest }) := by
  simp [State.randomByte, h]

theorem State.randomByte_free (s : State) (h : s.draws = []) :
    s.randomByte = (Config.freeRandomByte s.drawIndex, { s with drawIndex := s.drawIndex + 1 }) := by
  simp [State.randomByte, h]

@[simp] theorem State.writeV_keyRead (s : State) (r : Reg) (b : Byte) (q : Fin 16) : (s.writeV r b).keyRead q = s.keyRead q := rfl
@[simp] theorem State.writeV_stackDepth (s : State) (r : Reg) (b : Byte) : (s.writeV r b).stackDepth = s.stackDepth := rfl
@[simp] theorem State.writeResultFlag_keyRead (s : State) (x : Reg) (r : Byte × Bool) (q : Fin 16) : (s.writeResultFlag x r).keyRead q = s.keyRead q := rfl
@[simp] theorem State.writeResultFlag_stackDepth (s : State) (x : Reg) (r : Byte × Bool) : (s.writeResultFlag x r).stackDepth = s.stackDepth := rfl
@[simp] theorem State.setPc_readV (s : State) (a : Word) (q : Reg) : (s.setPc a).readV q = s.readV q := rfl
@[simp] theorem State.setPc_keyRead (s : State) (a : Word) (q : Fin 16) : (s.setPc a).keyRead q = s.keyRead q := rfl
@[simp] theorem State.setPc_stackDepth (s : State) (a : Word) : (s.setPc a).stackDepth = s.stackDepth := rfl
@[simp] theorem State.skip_readV (s : State) (q : Reg) : (s.skip).readV q = s.readV q := rfl
@[simp] theorem State.skip_keyRead (s : State) (q : Fin 16) : (s.skip).keyRead q = s.keyRead q := rfl
@[simp] theorem State.skip_stackDepth (s : State) : (s.skip).stackDepth = s.stackDepth := rfl
@[simp] theorem State.advance_readV (s : State) (q : Reg) : (s.advance).readV q = s.readV q := rfl
@[simp] theorem State.advance_keyRead (s : State) (q : Fin 16) : (s.advance).keyRead q = s.keyRead q := rfl
@[simp] theorem State.advance_stackDepth (s : State) : (s.advance).stackDepth = s.stackDepth := rfl
@[simp] theorem State.setI_readV (s : State) (a : Word) (q : Reg) : (s.setI a).readV q = s.readV q := rfl
@[simp] theorem State.setI_keyRead (s : State) (a : Word) (q : Fin 16) : (s.setI a).keyRead q = s.keyRead q := rfl
@[simp] theorem State.setI_stackDepth (s : State) (a : Word) : (s.setI a).stackDepth = s.stackDepth := rfl
@[simp] theorem State.setDt_readV (s : State) (b : Byte) (q : Reg) : (s.setDt b).readV q = s.readV q := rfl
@[simp] theorem State.setDt_keyRead (s : State) (b : Byte) (q : Fin 16) : (s.setDt b).keyRead q = s.keyRead q := rfl
@[simp] theorem State.setDt_stackDepth (s : State) (b : Byte) : (s.setDt b).stackDepth = s.stackDepth := rfl
@[simp] theorem State.setSt_readV (s : State) (b : Byte) (q : Reg) : (s.setSt b).readV q = s.readV q := rfl
@[simp] theorem State.setSt_keyRead (s : State) (b : Byte) (q : Fin 16) : (s.setSt b).keyRead q = s.keyRead q := rfl
@[simp] theorem State.setSt_stackDepth (s : State) (b : Byte) : (s.setSt b).stackDepth = s.stackDepth := rfl
@[simp] theorem State.setDisp_readV (s : State) (d : Display) (q : Reg) : (s.setDisp d).readV q = s.readV q := rfl
@[simp] theorem State.setDisp_keyRead (s : State) (d : Display) (q : Fin 16) : (s.setDisp d).keyRead q = s.keyRead q := rfl
@[simp] theorem State.setDisp_stackDepth (s : State) (d : Display) : (s.setDisp d).stackDepth = s.stackDepth := rfl
@[simp] theorem State.setKey_readV (s : State) (k : Fin 16) (b : Bool) (q : Reg) : (s.setKey k b).readV q = s.readV q := rfl
@[simp] theorem State.setKey_stackDepth (s : State) (k : Fin 16) (b : Bool) : (s.setKey k b).stackDepth = s.stackDepth := rfl
@[simp] theorem State.push_readV (s : State) (a : Word) (q : Reg) : (s.push a).readV q = s.readV q := rfl
@[simp] theorem State.push_keyRead (s : State) (a : Word) (q : Fin 16) : (s.push a).keyRead q = s.keyRead q := rfl
@[simp] theorem State.pop_readV (s : State) (q : Reg) : (s.pop).readV q = s.readV q := rfl
@[simp] theorem State.pop_keyRead (s : State) (q : Fin 16) : (s.pop).keyRead q = s.keyRead q := rfl
@[simp] theorem State.pop_stackDepth (s : State) : (s.pop).stackDepth = s.stackDepth := rfl
@[simp] theorem State.halt_readV (s : State) (q : Reg) : (s.halt).readV q = s.readV q := rfl
@[simp] theorem State.halt_keyRead (s : State) (q : Fin 16) : (s.halt).keyRead q = s.keyRead q := rfl
@[simp] theorem State.halt_stackDepth (s : State) : (s.halt).stackDepth = s.stackDepth := rfl
@[simp] theorem State.raise_readV (s : State) (c : FaultCause) (w a : Word) (q : Reg) : (s.raise c w a).readV q = s.readV q := rfl
@[simp] theorem State.raise_keyRead (s : State) (c : FaultCause) (w a : Word) (q : Fin 16) : (s.raise c w a).keyRead q = s.keyRead q := rfl
@[simp] theorem State.raise_stackDepth (s : State) (c : FaultCause) (w a : Word) : (s.raise c w a).stackDepth = s.stackDepth := rfl
@[simp] theorem State.raiseIn_readV (s : State) (c : FaultCause) (ins : Instr) (q : Reg) : (s.raiseIn c ins).readV q = s.readV q := rfl
@[simp] theorem State.raiseIn_keyRead (s : State) (c : FaultCause) (ins : Instr) (q : Fin 16) : (s.raiseIn c ins).keyRead q = s.keyRead q := rfl
@[simp] theorem State.raiseIn_stackDepth (s : State) (c : FaultCause) (ins : Instr) : (s.raiseIn c ins).stackDepth = s.stackDepth := rfl
@[simp] theorem State.timerTick_readV (s : State) (q : Reg) : (s.timerTick).readV q = s.readV q := rfl
@[simp] theorem State.timerTick_keyRead (s : State) (q : Fin 16) : (s.timerTick).keyRead q = s.keyRead q := rfl
@[simp] theorem State.timerTick_stackDepth (s : State) : (s.timerTick).stackDepth = s.stackDepth := rfl

@[simp] theorem State.randomByte_readV (s : State) (q : Reg) : s.randomByte.2.readV q = s.readV q := by
  simp [State.readV]

@[simp] theorem State.randomByte_keyRead (s : State) (q : Fin 16) : s.randomByte.2.keyRead q = s.keyRead q := by
  simp [State.keyRead]

@[simp] theorem State.randomByte_stackDepth (s : State) : s.randomByte.2.stackDepth = s.stackDepth := by
  simp [State.stackDepth]

@[simp] theorem State.push_stackDepth (s : State) (a : Word) : (s.push a).stackDepth = s.stackDepth := by
  simp [State.stackDepth]

/-- Reading a register after a write, any two registers. -/
theorem State.readV_writeV (s : State) (r q : Reg) (b : Byte) :
    (s.writeV r b).readV q = if q = r then b else s.readV q := by
  simp [State.readV, Vector.getElem_set, Fin.ext_iff, eq_comm]

@[simp] theorem State.readV_writeV_same (s : State) (r : Reg) (b : Byte) : (s.writeV r b).readV r = b := by
  simp [State.readV_writeV]

@[simp] theorem State.readV_writeV_ne (s : State) (r q : Reg) (b : Byte) (h : q ≠ r) :
    (s.writeV r b).readV q = s.readV q := by
  simp [State.readV_writeV, h]

/-- Reading a register after a flag writer's last stage: the flag in `V[15]`, the result in `V[x]` unless `x = 15`. -/
theorem State.readV_writeResultFlag (s : State) (x q : Reg) (r : Byte × Bool) :
    (s.writeResultFlag x r).readV q = if q = regVF then flagByte r.2 else if q = x then r.1 else s.readV q := by
  simp [State.writeResultFlag, State.readV_writeV]

/-- Reading a key after the host changed one. -/
theorem State.keyRead_setKey (s : State) (k q : Fin 16) (b : Bool) :
    (s.setKey k b).keyRead q = if q = k then b else s.keyRead q := by
  simp [State.keyRead, Vector.getElem_set, Fin.ext_iff, eq_comm]

end Sys2Proof.Machine
end

