-- ==== Sys2Proof/Laws/Ops.lean ====
section
/-! SUPPORT. One lemma for each shared operation: everything it can answer. -/

namespace Sys2Proof.Machine

/-- The fetch: both bytes inside memory, big-endian, or nothing (R26, R53). -/
theorem State.fetch_eq_some (s : State) (w : Word) :
    s.fetch = some w ↔ s.pc.toNat + 1 < s.memSize ∧
      wordOfBytes (Memory.read s.mem s.pc.toNat) (Memory.read s.mem (s.pc.toNat + 1)) = w := by
  unfold State.fetch
  split_ifs with h <;> simp [h]

theorem State.fetch_eq_none (s : State) : s.fetch = none ↔ s.memSize ≤ s.pc.toNat + 1 := by
  unfold State.fetch
  split_ifs with h <;> simp <;> omega

/-- A conditional skip completes: `PC` moves on by 2 when the condition holds (R110). -/
theorem skipIf_next (c : Bool) (s : State) : skipIf c s = .next (s.setPc (if c then s.pc + 2#16 else s.pc)) := by
  cases c <;> rfl

/-- The key of a register's value, for the values that select one (R162). -/
theorem keyOfByte_lt (b : Byte) (h : b.toNat < 16) : keyOfByte b = some ⟨b.toNat, h⟩ := by
  simp [keyOfByte, h]

theorem keyOfByte_ge (b : Byte) (h : 16 ≤ b.toNat) : keyOfByte b = none := by
  simp [keyOfByte]; omega

/-- The sprite's bytes, when all of them lie in memory (R151). -/
theorem State.spriteRows_inside (s : State) (base n : Nat) (h : n = 0 ∨ base + n ≤ s.memSize) (hm : 0 < s.memSize) :
    s.spriteRows base n = some ((List.range n).map fun r => Memory.read s.mem (base + r)) := by
  unfold State.spriteRows
  rw [if_neg (by omega)]

theorem State.spriteRows_outside (s : State) (base n : Nat) (hn : 0 < n) (h : s.memSize < base + n) :
    s.spriteRows base n = none := by
  unfold State.spriteRows
  rw [if_pos (by omega)]

/-- The byte read by `topSlot` where the stack is in order (R104). -/
theorem State.topSlot_inside (s : State) (h0 : 0 < s.sp) (h : s.sp ≤ s.stackDepth) :
    ∃ a, s.topSlot = some a ∧ s.stack[s.sp - 1]? = some a := by
  unfold State.stackDepth at h
  exact ⟨s.stack[s.sp - 1]'(by omega), List.getElem?_eq_getElem (by omega), List.getElem?_eq_getElem (by omega)⟩

/-- What `CALL` can answer: a fault entry, a push and a jump, or the stop of an impossible stack pointer. -/
theorem execCall_cases (addr : Addr12) (s : State) :
    (s.sp = s.stackDepth ∧ execCall addr s = .next (s.raiseIn .stackOverflow (.call addr))) ∨
    (s.sp < s.stackDepth ∧ execCall addr s = .next ((s.push s.pc).setPc (zextAddr addr))) ∨
    (s.stackDepth < s.sp ∧ execCall addr s = .fault .stackPointerOutOfRange) := by
  unfold execCall
  rcases lt_trichotomy s.sp s.stackDepth with h | h | h
  · exact .inr (.inl ⟨h, by rw [if_neg (by omega), if_pos h]⟩)
  · exact .inl ⟨h, by rw [if_pos h]⟩
  · exact .inr (.inr ⟨h, by rw [if_neg (by omega), if_neg (by omega)]⟩)

/-- What `RET` can answer: a fault entry, a pop, or the stop of an impossible stack pointer. -/
theorem execRet_cases (s : State) :
    (s.sp = 0 ∧ execRet s = .next (s.raiseIn .stackUnderflow .ret)) ∨
    (0 < s.sp ∧ ∃ a, s.topSlot = some a ∧ execRet s = .next (s.pop.setPc a)) ∨
    (s.stackDepth < s.sp ∧ execRet s = .fault .stackPointerOutOfRange) := by
  unfold execRet
  by_cases h : s.sp = 0
  · exact .inl ⟨h, by rw [if_pos h]⟩
  · rw [if_neg h]
    cases ht : s.topSlot with
    | some a => exact .inr (.inl ⟨by omega, a, rfl, rfl⟩)
    | none =>
      unfold State.topSlot at ht
      rw [List.getElem?_eq_none_iff] at ht
      exact .inr (.inr ⟨by unfold State.stackDepth; omega, rfl⟩)

/-- What `DRW` can answer: a fault entry, or the blit and the flag; it never stops. -/
theorem execDrw_cases (x y : Reg) (n : Nibble) (s : State) :
    (s.spriteRows s.i.toNat n.toNat = none ∧
      execDrw x y n s = .next (s.raiseIn .memoryBounds (.drw x y n))) ∨
    (∃ rows, s.spriteRows s.i.toNat n.toNat = some rows ∧
      execDrw x y n s = .next ((s.setDisp (blit s.collisionRule (s.readV x).toNat (s.readV y).toNat rows s.disp).1).writeV
        regVF (flagByte (blit s.collisionRule (s.readV x).toNat (s.readV y).toNat rows s.disp).2))) := by
  unfold execDrw
  cases h : s.spriteRows s.i.toNat n.toNat with
  | none => exact .inl ⟨rfl, rfl⟩
  | some rows => exact .inr ⟨rows, rfl, rfl⟩

/-- What `SKP` can answer. -/
theorem execSkp_cases (x : Reg) (s : State) :
    (16 ≤ (s.readV x).toNat ∧ execSkp x s = .next (s.raiseIn .keyIndex (.skp x))) ∨
    (∃ h : (s.readV x).toNat < 16, execSkp x s =
      .next (s.setPc (if s.keyRead ⟨(s.readV x).toNat, h⟩ then s.pc + 2#16 else s.pc))) := by
  unfold execSkp
  rcases Nat.lt_or_ge (s.readV x).toNat 16 with h | h
  · exact .inr ⟨h, by rw [keyOfByte_lt _ h]; exact skipIf_next _ _⟩
  · exact .inl ⟨h, by rw [keyOfByte_ge _ h]⟩

/-- What `SKNP` can answer. -/
theorem execSknp_cases (x : Reg) (s : State) :
    (16 ≤ (s.readV x).toNat ∧ execSknp x s = .next (s.raiseIn .keyIndex (.sknp x))) ∨
    (∃ h : (s.readV x).toNat < 16, execSknp x s =
      .next (s.setPc (if !s.keyRead ⟨(s.readV x).toNat, h⟩ then s.pc + 2#16 else s.pc))) := by
  unfold execSknp
  rcases Nat.lt_or_ge (s.readV x).toNat 16 with h | h
  · exact .inr ⟨h, by rw [keyOfByte_lt _ h]; exact skipIf_next _ _⟩
  · exact .inl ⟨h, by rw [keyOfByte_ge _ h]⟩

/-- What a step can do, guards included (R220). -/
theorem step_cases (s : State) :
    (s.mode = .halted ∧ step s = .fault .stuckHalted) ∨
    (s.mode = .faulted ∧ step s = .fault .stuckFaulted) ∨
    (s.mode = .running ∧ s.fetch = none ∧ step s = .next (s.raise .memoryBounds 0#16 s.pc)) ∨
    (s.mode = .running ∧ ∃ w, s.fetch = some w ∧ decodeWord w = none ∧
      step s = .next (s.advance.raise .decodeError w s.pc)) ∨
    (s.mode = .running ∧ ∃ w i, s.fetch = some w ∧ decodeWord w = some i ∧ step s = exec i s.advance) := by
  unfold step
  cases hm : s.mode with
  | halted => exact .inl ⟨rfl, rfl⟩
  | faulted => exact .inr (.inl ⟨rfl, rfl⟩)
  | running =>
    refine .inr (.inr ?_)
    cases hf : s.fetch with
    | none => exact .inl ⟨rfl, rfl, rfl⟩
    | some w =>
      refine .inr ?_
      cases hd : decodeWord w with
      | none => exact .inl ⟨rfl, w, rfl, hd, by simp [hd]⟩
      | some i => exact .inr ⟨rfl, w, i, rfl, hd, by simp [hd]⟩

end Sys2Proof.Machine
end

