-- ==== Sys2Proof/Laws/PerInstr.lean ====
section
/-! SUPPORT. The family TableRow: the word of an instruction lies in its row of the opcode table, that is
`word & mask = match` with the row's mask and match as rule R78 (spec/30_encoding.md) prints them. -/

namespace Sys2Proof.Laws

theorem and_F000 (w : Word) : w &&& 0xF000#16 = (fieldC w).setWidth 16 <<< 12 := by
  apply BitVec.eq_of_getLsbD_eq
  intro k hk
  interval_cases k <;> simp [fieldC]

theorem and_F00F (w : Word) :
    w &&& 0xF00F#16 = (fieldC w).setWidth 16 <<< 12 ||| (fieldN w).setWidth 16 := by
  apply BitVec.eq_of_getLsbD_eq
  intro k hk
  interval_cases k <;> simp [fieldC, fieldN]

theorem and_F0FF (w : Word) :
    w &&& 0xF0FF#16 = (fieldC w).setWidth 16 <<< 12 ||| (fieldKK w).setWidth 16 := by
  apply BitVec.eq_of_getLsbD_eq
  intro k hk
  interval_cases k <;> simp [fieldC, fieldKK]

/-- The column `mask` of rule R78. -/
def TableRow.mask : Instr → Word
  | .halt => 0xFFFF#16
  | .cls => 0xFFFF#16
  | .ret => 0xFFFF#16
  | .sys _ => 0xF000#16
  | .jp _ => 0xF000#16
  | .call _ => 0xF000#16
  | .seImm _ _ => 0xF000#16
  | .sneImm _ _ => 0xF000#16
  | .seReg _ _ => 0xF00F#16
  | .ldImm _ _ => 0xF000#16
  | .addImm _ _ => 0xF000#16
  | .ldReg _ _ => 0xF00F#16
  | .orReg _ _ => 0xF00F#16
  | .andReg _ _ => 0xF00F#16
  | .xorReg _ _ => 0xF00F#16
  | .addReg _ _ => 0xF00F#16
  | .sub _ _ => 0xF00F#16
  | .shr _ _ => 0xF00F#16
  | .subn _ _ => 0xF00F#16
  | .shl _ _ => 0xF00F#16
  | .sneReg _ _ => 0xF00F#16
  | .ldI _ => 0xF000#16
  | .jpV0 _ => 0xF000#16
  | .rnd _ _ => 0xF000#16
  | .drw _ _ _ => 0xF000#16
  | .skp _ => 0xF0FF#16
  | .sknp _ => 0xF0FF#16
  | .ldVxDt _ => 0xF0FF#16
  | .ldDtVx _ => 0xF0FF#16
  | .ldStVx _ => 0xF0FF#16
  | .addI _ => 0xF0FF#16
  | .fx0a _ => 0xF0FF#16
  | .fx29 _ => 0xF0FF#16
  | .fx33 _ => 0xF0FF#16
  | .fx55 _ => 0xF0FF#16
  | .fx65 _ => 0xF0FF#16

/-- The column `match` of rule R78. -/
def TableRow.value : Instr → Word
  | .halt => 0x0000#16
  | .cls => 0x00E0#16
  | .ret => 0x00EE#16
  | .sys _ => 0x0000#16
  | .jp _ => 0x1000#16
  | .call _ => 0x2000#16
  | .seImm _ _ => 0x3000#16
  | .sneImm _ _ => 0x4000#16
  | .seReg _ _ => 0x5000#16
  | .ldImm _ _ => 0x6000#16
  | .addImm _ _ => 0x7000#16
  | .ldReg _ _ => 0x8000#16
  | .orReg _ _ => 0x8001#16
  | .andReg _ _ => 0x8002#16
  | .xorReg _ _ => 0x8003#16
  | .addReg _ _ => 0x8004#16
  | .sub _ _ => 0x8005#16
  | .shr _ _ => 0x8006#16
  | .subn _ _ => 0x8007#16
  | .shl _ _ => 0x800E#16
  | .sneReg _ _ => 0x9000#16
  | .ldI _ => 0xA000#16
  | .jpV0 _ => 0xB000#16
  | .rnd _ _ => 0xC000#16
  | .drw _ _ _ => 0xD000#16
  | .skp _ => 0xE09E#16
  | .sknp _ => 0xE0A1#16
  | .ldVxDt _ => 0xF007#16
  | .ldDtVx _ => 0xF015#16
  | .ldStVx _ => 0xF018#16
  | .addI _ => 0xF01E#16
  | .fx0a _ => 0xF00A#16
  | .fx29 _ => 0xF029#16
  | .fx33 _ => 0xF033#16
  | .fx55 _ => 0xF055#16
  | .fx65 _ => 0xF065#16

/-- The instruction's word lies in its row of the table. -/
def TableRow.Statement (i : Instr) : Prop := encode i &&& TableRow.mask i = TableRow.value i

theorem TableRow.halt : TableRow.Statement .halt := by
  unfold TableRow.Statement; decide
theorem TableRow.cls : TableRow.Statement .cls := by
  unfold TableRow.Statement; decide
theorem TableRow.ret : TableRow.Statement .ret := by
  unfold TableRow.Statement; decide
theorem TableRow.sys (addr : Addr12) : TableRow.Statement (.sys addr) := by
  simp [TableRow.Statement, TableRow.mask, TableRow.value, encode, and_F000]
theorem TableRow.jp (addr : Addr12) : TableRow.Statement (.jp addr) := by
  simp [TableRow.Statement, TableRow.mask, TableRow.value, encode, and_F000]
theorem TableRow.call (addr : Addr12) : TableRow.Statement (.call addr) := by
  simp [TableRow.Statement, TableRow.mask, TableRow.value, encode, and_F000]
theorem TableRow.seImm (x : Reg) (kk : Byte) : TableRow.Statement (.seImm x kk) := by
  simp [TableRow.Statement, TableRow.mask, TableRow.value, encode, and_F000]
theorem TableRow.sneImm (x : Reg) (kk : Byte) : TableRow.Statement (.sneImm x kk) := by
  simp [TableRow.Statement, TableRow.mask, TableRow.value, encode, and_F000]
theorem TableRow.seReg (x : Reg) (y : Reg) : TableRow.Statement (.seReg x y) := by
  simp [TableRow.Statement, TableRow.mask, TableRow.value, encode, and_F00F]
theorem TableRow.ldImm (x : Reg) (kk : Byte) : TableRow.Statement (.ldImm x kk) := by
  simp [TableRow.Statement, TableRow.mask, TableRow.value, encode, and_F000]
theorem TableRow.addImm (x : Reg) (kk : Byte) : TableRow.Statement (.addImm x kk) := by
  simp [TableRow.Statement, TableRow.mask, TableRow.value, encode, and_F000]
theorem TableRow.ldReg (x : Reg) (y : Reg) : TableRow.Statement (.ldReg x y) := by
  simp [TableRow.Statement, TableRow.mask, TableRow.value, encode, and_F00F]
theorem TableRow.orReg (x : Reg) (y : Reg) : TableRow.Statement (.orReg x y) := by
  simp [TableRow.Statement, TableRow.mask, TableRow.value, encode, and_F00F]
theorem TableRow.andReg (x : Reg) (y : Reg) : TableRow.Statement (.andReg x y) := by
  simp [TableRow.Statement, TableRow.mask, TableRow.value, encode, and_F00F]
theorem TableRow.xorReg (x : Reg) (y : Reg) : TableRow.Statement (.xorReg x y) := by
  simp [TableRow.Statement, TableRow.mask, TableRow.value, encode, and_F00F]
theorem TableRow.addReg (x : Reg) (y : Reg) : TableRow.Statement (.addReg x y) := by
  simp [TableRow.Statement, TableRow.mask, TableRow.value, encode, and_F00F]
theorem TableRow.sub (x : Reg) (y : Reg) : TableRow.Statement (.sub x y) := by
  simp [TableRow.Statement, TableRow.mask, TableRow.value, encode, and_F00F]
theorem TableRow.shr (x : Reg) (y : Reg) : TableRow.Statement (.shr x y) := by
  simp [TableRow.Statement, TableRow.mask, TableRow.value, encode, and_F00F]
theorem TableRow.subn (x : Reg) (y : Reg) : TableRow.Statement (.subn x y) := by
  simp [TableRow.Statement, TableRow.mask, TableRow.value, encode, and_F00F]
theorem TableRow.shl (x : Reg) (y : Reg) : TableRow.Statement (.shl x y) := by
  simp [TableRow.Statement, TableRow.mask, TableRow.value, encode, and_F00F]
theorem TableRow.sneReg (x : Reg) (y : Reg) : TableRow.Statement (.sneReg x y) := by
  simp [TableRow.Statement, TableRow.mask, TableRow.value, encode, and_F00F]
theorem TableRow.ldI (addr : Addr12) : TableRow.Statement (.ldI addr) := by
  simp [TableRow.Statement, TableRow.mask, TableRow.value, encode, and_F000]
theorem TableRow.jpV0 (addr : Addr12) : TableRow.Statement (.jpV0 addr) := by
  simp [TableRow.Statement, TableRow.mask, TableRow.value, encode, and_F000]
theorem TableRow.rnd (x : Reg) (kk : Byte) : TableRow.Statement (.rnd x kk) := by
  simp [TableRow.Statement, TableRow.mask, TableRow.value, encode, and_F000]
theorem TableRow.drw (x : Reg) (y : Reg) (n : Nibble) : TableRow.Statement (.drw x y n) := by
  simp [TableRow.Statement, TableRow.mask, TableRow.value, encode, and_F000]
theorem TableRow.skp (x : Reg) : TableRow.Statement (.skp x) := by
  simp [TableRow.Statement, TableRow.mask, TableRow.value, encode, and_F0FF]
theorem TableRow.sknp (x : Reg) : TableRow.Statement (.sknp x) := by
  simp [TableRow.Statement, TableRow.mask, TableRow.value, encode, and_F0FF]
theorem TableRow.ldVxDt (x : Reg) : TableRow.Statement (.ldVxDt x) := by
  simp [TableRow.Statement, TableRow.mask, TableRow.value, encode, and_F0FF]
theorem TableRow.ldDtVx (x : Reg) : TableRow.Statement (.ldDtVx x) := by
  simp [TableRow.Statement, TableRow.mask, TableRow.value, encode, and_F0FF]
theorem TableRow.ldStVx (x : Reg) : TableRow.Statement (.ldStVx x) := by
  simp [TableRow.Statement, TableRow.mask, TableRow.value, encode, and_F0FF]
theorem TableRow.addI (x : Reg) : TableRow.Statement (.addI x) := by
  simp [TableRow.Statement, TableRow.mask, TableRow.value, encode, and_F0FF]
theorem TableRow.fx0a (x : Reg) : TableRow.Statement (.fx0a x) := by
  simp [TableRow.Statement, TableRow.mask, TableRow.value, encode, and_F0FF]
theorem TableRow.fx29 (x : Reg) : TableRow.Statement (.fx29 x) := by
  simp [TableRow.Statement, TableRow.mask, TableRow.value, encode, and_F0FF]
theorem TableRow.fx33 (x : Reg) : TableRow.Statement (.fx33 x) := by
  simp [TableRow.Statement, TableRow.mask, TableRow.value, encode, and_F0FF]
theorem TableRow.fx55 (x : Reg) : TableRow.Statement (.fx55 x) := by
  simp [TableRow.Statement, TableRow.mask, TableRow.value, encode, and_F0FF]
theorem TableRow.fx65 (x : Reg) : TableRow.Statement (.fx65 x) := by
  simp [TableRow.Statement, TableRow.mask, TableRow.value, encode, and_F0FF]

end Sys2Proof.Laws
end

