-- ==== Sys2Proof/Tests/Slice0.lean ====
section
/-! SUPPORT. Tests with results from spec/95_test_vectors.md and from the encodings of spec/30_encoding.md, and for
every statement with hypotheses a witness that meets them. -/

namespace Sys2Proof.Tests

open Sys2Proof.Machine Sys2Proof.Safety
open Sys2Proof.Config (CollisionRule)

/-- The start of a vector of spec/95_test_vectors.md: the reset state with the word at `0x010` and `PC` there. -/
def atTen (w : Nat) : State := (State.reset.setPc 0x010#16).withFetchWord 16 w

/-- A byte of memory put in place. -/
def poke (s : State) (a : Nat) (b : Byte) : State := { s with mem := Memory.write s.mem a b }

/-- A cell of the display turned on. -/
def lit (s : State) (px : Fin 64) (py : Fin 32) : State := s.setDisp (Display.write s.disp px py true)

/-- A stack pointer put in place. -/
def withSp (s : State) (sp : Nat) : State := { s with sp := sp }

/-- The collision rule put in place. -/
def withRule (s : State) (r : CollisionRule) : State := { s with collisionRule := r }

/-- What is seen of the next state of one step. -/
def after {α : Type} (s : State) (f : State → α) : Option α :=
  match step s with
  | .next t => some (f t)
  | .fault _ => none
  | .refused _ => none

/-- What is seen of a fault: cause, word, address and `PC`. -/
def faultSeen (s : State) : Option (Mode × BitVec 3 × Word × Word × Word) :=
  after s fun t => (t.mode, t.faultCause, t.faultWord, t.faultAddr, t.pc)

/-- The cells that are on, column by column. -/
def cellsOn (s : State) : List (Nat × Nat) :=
  (List.finRange 64).flatMap fun px =>
    ((List.finRange 32).filter fun py => Display.read s.disp px py).map fun py => (px.val, py.val)

/-! ### Well-formed terms -/

theorem test_sys_zero_is_ill_formed : (Instr.sys 0x000#12).wellFormed = false := by decide
theorem test_sys_cls_is_ill_formed : (Instr.sys 0x0E0#12).wellFormed = false := by decide
theorem test_sys_ret_is_ill_formed : (Instr.sys 0x0EE#12).wellFormed = false := by decide

/-! ### Decoding: each word from the formats of R74 and the rows of R78, the fields `c x y n` in order -/

theorem test_decode_control_flow :
    decodeWord 0b0000_0000_0000_0000#16 = some .halt ∧
    decodeWord 0b0000_0000_1110_1110#16 = some .ret ∧
    decodeWord 0b0000_0001_0010_0011#16 = some (.sys 0x123#12) ∧
    decodeWord 0b0001_0010_0000_0101#16 = some (.jp 0x205#12) ∧
    decodeWord 0b0010_0011_0000_0000#16 = some (.call 0x300#12) ∧
    decodeWord 0b1011_0010_1111_1111#16 = some (.jpV0 0x2FF#12) := by decide

theorem test_decode_skips :
    decodeWord 0b0011_1111_0000_0001#16 = some (.seImm 15 0x01#8) ∧
    decodeWord 0b0100_0001_1010_0101#16 = some (.sneImm 1 0xA5#8) ∧
    decodeWord 0b0101_0001_0010_0000#16 = some (.seReg 1 2) ∧
    decodeWord 0b1001_0011_1100_0000#16 = some (.sneReg 3 12) := by decide

theorem test_decode_loads_and_alu :
    decodeWord 0b0110_1111_1010_1010#16 = some (.ldImm 15 0xAA#8) ∧
    decodeWord 0b0111_0000_0000_0011#16 = some (.addImm 0 0x03#8) ∧
    decodeWord 0b1000_0010_0011_0000#16 = some (.ldReg 2 3) ∧
    decodeWord 0b1000_0001_0010_0001#16 = some (.orReg 1 2) ∧
    decodeWord 0b1000_0001_0010_0010#16 = some (.andReg 1 2) ∧
    decodeWord 0b1000_0001_0010_0011#16 = some (.xorReg 1 2) ∧
    decodeWord 0b1000_0001_0010_0100#16 = some (.addReg 1 2) ∧
    decodeWord 0b1000_0001_0010_0101#16 = some (.sub 1 2) ∧
    decodeWord 0b1000_0100_1010_0110#16 = some (.shr 4 10) ∧
    decodeWord 0b1000_0001_0010_0111#16 = some (.subn 1 2) ∧
    decodeWord 0b1000_0100_1010_1110#16 = some (.shl 4 10) := by decide

theorem test_decode_index_and_random :
    decodeWord 0b1010_0010_0000_1100#16 = some (.ldI 0x20C#12) ∧
    decodeWord 0b1100_0001_0000_1111#16 = some (.rnd 1 0x0F#8) ∧
    decodeWord 0b1111_0001_0001_1110#16 = some (.addI 1) := by decide

theorem test_decode_display :
    decodeWord 0b0000_0000_1110_0000#16 = some .cls ∧
    decodeWord 0b1101_0000_0001_0010#16 = some (.drw 0 1 0x2#4) := by decide

theorem test_decode_keypad_and_timers :
    decodeWord 0b1110_0001_1001_1110#16 = some (.skp 1) ∧
    decodeWord 0b1110_0001_1010_0001#16 = some (.sknp 1) ∧
    decodeWord 0b1111_0010_0000_0111#16 = some (.ldVxDt 2) ∧
    decodeWord 0b1111_0010_0001_0101#16 = some (.ldDtVx 2) ∧
    decodeWord 0b1111_0010_0001_1000#16 = some (.ldStVx 2) := by decide

theorem test_decode_unimplemented :
    decodeWord 0b1111_0011_0000_1010#16 = some (.fx0a 3) ∧
    decodeWord 0b1111_0000_0010_1001#16 = some (.fx29 0) ∧
    decodeWord 0b1111_0101_0011_0011#16 = some (.fx33 5) ∧
    decodeWord 0b1111_0010_0101_0101#16 = some (.fx55 2) ∧
    decodeWord 0b1111_0010_0110_0101#16 = some (.fx65 2) := by decide

/-- Section 2.7 of the vectors. -/
theorem test_decode_refuses_illegal_words :
    decodeBytes [0x50#8, 0x01#8] = .illegal 0x5001#16 ∧ decodeWord 0x8008#16 = none ∧ decodeWord 0x800F#16 = none ∧
    decodeWord 0x9001#16 = none ∧ decodeWord 0xE09D#16 = none ∧ decodeWord 0xF016#16 = none ∧
    decodeWord 0xFFFF#16 = none := by decide

theorem test_decode_refuses_one_byte : decodeBytes [0x60#8] = .truncated := by decide

theorem test_decode_keeps_the_rest :
    decodeBytes [0x70#8, 0x03#8, 0x00#8] = .instr (.addImm 0 0x03#8) [0x00#8] := by decide

/-! ### One step of each instruction, from spec/95_test_vectors.md -/

/-- 2.1 vector 1. -/
theorem test_halt : after (State.reset.setPc 0x004#16) (fun t => (t.mode, t.pc)) = some (.halted, 0x006#16) := by
  decide
/-- 2.1 vector 2. -/
theorem test_jp : after (atTen 0x1205) (fun t => t.pc) = some 0x205#16 := by decide
/-- 2.1 vector 4. -/
theorem test_call : after (atTen 0x2300) (fun t => (t.stack[0]?, t.sp, t.pc)) = some (some 0x012#16, 1, 0x300#16) := by
  decide
/-- 2.1 vector 5. -/
theorem test_call_full : faultSeen (withSp (atTen 0x2300) 16) =
    some (.faulted, 4#3, 0x2300#16, 0x0010#16, 0x012#16) := by decide
/-- 2.1 vector 6. -/
theorem test_ret : after (withSp (((withSp (atTen 0x00EE) 0).push 0x123#16).push 0x456#16) 2)
    (fun t => (t.pc, t.sp, t.stack[1]?)) = some (0x456#16, 1, some 0x456#16) := by decide
/-- 2.1 vector 7. -/
theorem test_ret_empty : faultSeen (atTen 0x00EE) = some (.faulted, 5#3, 0x00EE#16, 0x0010#16, 0x012#16) := by decide
/-- 2.1 vector 8. -/
theorem test_sys : faultSeen (atTen 0x0123) = some (.faulted, 2#3, 0x0123#16, 0x0010#16, 0x012#16) := by decide
/-- 2.1 vector 11. -/
theorem test_jp_v0 : after (((atTen 0xB2FF).writeV 0 0x01#8).writeV 2 0x55#8) (fun t => t.pc) = some 0x300#16 := by
  decide
/-- 2.1 vector 12. -/
theorem test_jp_v0_high : after ((atTen 0xBFFF).writeV 0 0xFF#8) (fun t => t.pc) = some 0x10FE#16 := by decide
/-- 2.1 vector 14. -/
theorem test_fetch_outside : faultSeen (State.reset.setPc 0x1000#16) =
    some (.faulted, 6#3, 0x0000#16, 0x1000#16, 0x1000#16) := by decide

/-- 2.2 vectors 1 and 2. -/
theorem test_se_imm : after ((atTen 0x3005).writeV 0 5#8) (fun t => t.pc) = some 0x014#16 ∧
    after ((atTen 0x3005).writeV 0 6#8) (fun t => t.pc) = some 0x012#16 := by decide
/-- 2.2 vectors 3 and 4. -/
theorem test_sne_imm : after ((atTen 0x4005).writeV 0 6#8) (fun t => t.pc) = some 0x014#16 ∧
    after ((atTen 0x4005).writeV 0 5#8) (fun t => t.pc) = some 0x012#16 := by decide
/-- 2.2 vectors 6 and 7. -/
theorem test_se_reg : after (((atTen 0x5120).writeV 1 0x7F#8).writeV 2 0x7F#8) (fun t => t.pc) = some 0x014#16 ∧
    after (((atTen 0x5120).writeV 1 1#8).writeV 2 2#8) (fun t => t.pc) = some 0x012#16 := by decide
/-- 2.2 vectors 10 and 12. -/
theorem test_sne_reg : after (((atTen 0x9120).writeV 1 1#8).writeV 2 2#8) (fun t => t.pc) = some 0x014#16 ∧
    after ((atTen 0x9330).writeV 3 9#8) (fun t => t.pc) = some 0x012#16 := by decide
/-- 2.2 vector 9. -/
theorem test_decode_error : faultSeen (atTen 0x5121) = some (.faulted, 1#3, 0x5121#16, 0x0010#16, 0x012#16) := by
  decide

/-- 2.3 vector 1. -/
theorem test_ld_imm : after (atTen 0x6FAA) (fun t => t.readV 15) = some 0xAA#8 := by decide
/-- 2.3 vector 3. -/
theorem test_add_imm : after ((atTen 0x70FF).writeV 0 1#8) (fun t => (t.readV 0, t.readV 15)) = some (0#8, 1#8) := by
  decide
/-- 2.3 vector 7. -/
theorem test_add_imm_vf : after ((atTen 0x7F01).writeV 15 0xFF#8) (fun t => t.readV 15) = some 1#8 := by decide
/-- 2.3 vector 9. -/
theorem test_ld_reg : after ((atTen 0x8230).writeV 3 0xAB#8) (fun t => (t.readV 2, t.readV 15)) =
    some (0xAB#8, 0#8) := by decide
/-- 2.3 vector 11. -/
theorem test_or : after ((((atTen 0x8121).writeV 1 0xF0#8).writeV 2 0x0F#8).writeV 15 1#8)
    (fun t => (t.readV 1, t.readV 15)) = some (0xFF#8, 1#8) := by decide
/-- 2.3 vector 12. -/
theorem test_and : after ((((atTen 0x8122).writeV 1 0xF0#8).writeV 2 0x3C#8).writeV 15 1#8)
    (fun t => (t.readV 1, t.readV 15)) = some (0x30#8, 1#8) := by decide
/-- 2.3 vector 13. -/
theorem test_xor : after ((((atTen 0x8123).writeV 1 0xF0#8).writeV 2 0x3C#8).writeV 15 1#8)
    (fun t => (t.readV 1, t.readV 15)) = some (0xCC#8, 1#8) := by decide
/-- 2.3 vector 16. -/
theorem test_add_reg : after (((atTen 0x8124).writeV 1 0xC8#8).writeV 2 0x64#8)
    (fun t => (t.readV 1, t.readV 15)) = some (0x2C#8, 1#8) := by decide
/-- 2.3 vector 23. -/
theorem test_add_reg_vf_operand : after (((atTen 0x81F4).writeV 1 1#8).writeV 15 0xFF#8)
    (fun t => (t.readV 1, t.readV 15)) = some (0#8, 1#8) := by decide
/-- 2.3 vector 25. -/
theorem test_sub_borrow : after (((atTen 0x8125).writeV 1 0x05#8).writeV 2 0x0A#8)
    (fun t => (t.readV 1, t.readV 15)) = some (0xFB#8, 0#8) := by decide
/-- 2.3 vector 27. -/
theorem test_sub_equal : after (((atTen 0x8125).writeV 1 7#8).writeV 2 7#8)
    (fun t => (t.readV 1, t.readV 15)) = some (0#8, 1#8) := by decide
/-- 2.3 vector 33. -/
theorem test_subn : after (((atTen 0x8127).writeV 1 0x05#8).writeV 2 0x0A#8)
    (fun t => (t.readV 1, t.readV 15)) = some (0x05#8, 1#8) := by decide
/-- 2.3 vector 36. -/
theorem test_subn_vf : after (((atTen 0x8F17).writeV 1 2#8).writeV 15 3#8) (fun t => t.readV 15) = some 0#8 := by
  decide
/-- 2.3 vector 41. -/
theorem test_shr : after (((atTen 0x84A6).writeV 4 0x04#8).writeV 10 0xFF#8)
    (fun t => (t.readV 4, t.readV 15, t.readV 10)) = some (0x02#8, 0#8, 0xFF#8) := by decide
/-- 2.3 vector 40. -/
theorem test_shr_out : after ((atTen 0x8406).writeV 4 0xFF#8) (fun t => (t.readV 4, t.readV 15)) =
    some (0x7F#8, 1#8) := by decide
/-- 2.3 vector 44. -/
theorem test_shl : after ((atTen 0x840E).writeV 4 0x81#8) (fun t => (t.readV 4, t.readV 15)) =
    some (0x02#8, 1#8) := by decide
/-- 2.3 vector 49. -/
theorem test_shl_vf : after ((atTen 0x8FFE).writeV 15 0x40#8) (fun t => t.readV 15) = some 0#8 := by decide

/-- 2.4 vector 2. -/
theorem test_ld_i : after (atTen 0xAFFF) (fun t => t.i) = some 0x0FFF#16 := by decide
/-- 2.4 vector 4. -/
theorem test_add_i : after (((atTen 0xF11E).setI 0x0FFF#16).writeV 1 0xFF#8) (fun t => (t.i, t.readV 15)) =
    some (0x10FE#16, 0#8) := by decide
/-- 2.4 vector 5. -/
theorem test_add_i_wraps : after (((atTen 0xF11E).setI 0xFFFF#16).writeV 1 2#8) (fun t => t.i) = some 1#16 := by
  decide
/-- 2.4 vector 7, the draw supplied. -/
theorem test_rnd : after { atTen 0xC10F with draws := [0xA7#8] } (fun t => (t.readV 1, t.draws)) =
    some (0x07#8, []) := by decide
/-- 2.4 vector 8's mask, with no draw supplied: any byte masked with 0 is 0. -/
theorem test_rnd_free : after ((atTen 0xC200).writeV 2 0x55#8) (fun t => t.drawIndex) = some 1 := by decide

/-- 2.6 vector r. -/
theorem test_cls : after ((lit (lit (atTen 0x00E0) 0 0) 63 31).writeV 15 1#8) (fun t => (cellsOn t, t.readV 15)) =
    some ([], 1#8) := by decide
/-- 2.6 vector m. -/
theorem test_drw_outside : faultSeen (lit (poke ((atTen 0xD012).setI 0xFFF#16) 0xFFF 0xFF#8) 0 0) =
    some (.faulted, 6#3, 0xD012#16, 0x0010#16, 0x012#16) := by decide
/-- 2.6 vectors g (wrap in both directions), a under both rules, and j. -/
theorem test_drw :
    after (poke (poke ((((atTen 0xD012).writeV 0 62#8).writeV 1 31#8).setI 0x00C#16) 0x00C 0xF0#8) 0x00D 0x81#8)
      (fun t => (cellsOn t, t.readV 15)) =
      some ([(0, 31), (1, 31), (5, 0), (62, 0), (62, 31), (63, 31)], 0#8) ∧
    after (poke ((atTen 0xD011).setI 0x300#16) 0x300 0x80#8) (fun t => t.readV 15) = some 0#8 ∧
    after (withRule (poke ((atTen 0xD011).setI 0x300#16) 0x300 0x80#8) .literal) (fun t => t.readV 15) = some 1#8 ∧
    after (lit (poke ((atTen 0xD011).setI 0x300#16) 0x300 0xC0#8) 1 0) (fun t => (cellsOn t, t.readV 15)) =
      some ([(0, 0)], 1#8) := by decide

/-- 2.5 vectors 1 and 2. -/
theorem test_skp : after (((atTen 0xE19E).writeV 1 3#8).setKey 3 true) (fun t => t.pc) = some 0x014#16 ∧
    after ((atTen 0xE19E).writeV 1 3#8) (fun t => t.pc) = some 0x012#16 := by decide
/-- 2.5 vector 6. -/
theorem test_skp_index : faultSeen ((atTen 0xE19E).writeV 1 16#8) =
    some (.faulted, 7#3, 0xE19E#16, 0x0010#16, 0x012#16) := by decide
/-- 2.5 vectors 3 and 4. -/
theorem test_sknp : after (((atTen 0xE1A1).writeV 1 3#8).setKey 3 true) (fun t => t.pc) = some 0x012#16 ∧
    after ((atTen 0xE1A1).writeV 1 3#8) (fun t => t.pc) = some 0x014#16 := by decide
/-- 2.5 vector 7. -/
theorem test_sknp_index : faultSeen ((atTen 0xE1A1).writeV 1 0xFF#8) =
    some (.faulted, 7#3, 0xE1A1#16, 0x0010#16, 0x012#16) := by decide
/-- 2.5 vector 9. -/
theorem test_ld_vx_dt : after ((atTen 0xF207).setDt 0x2A#8) (fun t => (t.readV 2, t.dt)) = some (0x2A#8, 0x2A#8) := by
  decide
/-- 2.5 vector 11. -/
theorem test_ld_dt_vx : after ((atTen 0xF215).writeV 2 0x3C#8) (fun t => (t.dt, t.st)) = some (0x3C#8, 0#8) := by
  decide
/-- 2.5 vector 13. -/
theorem test_ld_st_vx : after ((atTen 0xF218).writeV 2 5#8) (fun t => (t.dt, t.st)) = some (0#8, 5#8) := by decide
/-- 2.5, the tick sequences. -/
theorem test_timer_tick : ((State.reset.setDt 3#8).setSt 1#8).timerTick.dt = 2#8 ∧
    ((State.reset.setDt 3#8).setSt 1#8).timerTick.st = 0#8 ∧
    ((State.reset.setDt 0#8).setSt 255#8).timerTick.dt = 0#8 := by decide

/-- 2.7, the five unimplemented opcodes. -/
theorem test_fx0a : faultSeen (atTen 0xF30A) = some (.faulted, 3#3, 0xF30A#16, 0x0010#16, 0x012#16) := by decide
theorem test_fx29 : faultSeen (atTen 0xF029) = some (.faulted, 3#3, 0xF029#16, 0x0010#16, 0x012#16) := by decide
theorem test_fx33 : faultSeen (atTen 0xF533) = some (.faulted, 3#3, 0xF533#16, 0x0010#16, 0x012#16) := by decide
theorem test_fx55 : faultSeen (atTen 0xF255) = some (.faulted, 3#3, 0xF255#16, 0x0010#16, 0x012#16) := by decide
theorem test_fx65 : faultSeen (atTen 0xF265) = some (.faulted, 3#3, 0xF265#16, 0x0010#16, 0x012#16) := by decide

/-! ### Witnesses: for each statement with hypotheses, a state and operands that meet them, one for each clause -/

theorem wit_DecodeOfEncodeIsTheInstruction :
    (Instr.sys 0x0EF#12).wellFormed = true ∧ (Instr.drw 15 15 0xF#4).wellFormed = true := by decide

theorem wit_EncodeOfDecodeIsTheWord : decodeWord 0xFF65#16 = some (.fx65 15) := by decide

/-- The instruction at `PC` in the reset state with `SUBN V15,V14` placed there. -/
theorem wit_StepRunsTheDecodedInstruction :
    (State.reset.withFetchWord 16 0x8FE7).mode = .running ∧ Fetches (State.reset.withFetchWord 16 0x8FE7) 0x8FE7#16 ∧
    decodeWord 0x8FE7#16 = some (.subn 15 14) := by unfold Fetches; decide

/-- The two addresses at the edge: one byte inside memory, and none. -/
theorem wit_StepOutsideMemoryFaults :
    (State.reset.setPc 0x0FFF#16).mode = .running ∧
    (State.reset.setPc 0x0FFF#16).memSize ≤ (State.reset.setPc 0x0FFF#16).pc.toNat + 1 ∧
    (State.reset.setPc 0xFFFF#16).memSize ≤ (State.reset.setPc 0xFFFF#16).pc.toNat + 1 := by decide

/-- An illegal word in the last two bytes of memory. -/
theorem wit_StepOnIllegalWordFaults :
    let s := (State.reset.setPc 0x0FFE#16).withFetchWord 16 0xFFFF
    s.mode = .running ∧ Fetches s 0xFFFF#16 ∧ decodeWord 0xFFFF#16 = none := by unfold Fetches; decide

theorem wit_StoppedMachineTakesNoStep :
    State.reset.halt.mode = .halted ∧ (State.reset.raise .keyIndex 0#16 0#16).mode = .faulted ∧
    step State.reset.halt = .fault .stuckHalted := ⟨rfl, rfl, rfl⟩

theorem wit_PlacedWordIsFetchedAndRun :
    let s := State.reset.setPc 0x0FFE#16
    s.mode = .running ∧ s.pc.toNat + 1 < s.memSize ∧ Memory.wf s.mem = true ∧
    decodeTableWord 16 (0xD012#16).toNat = some (.drw 0 1 2#4) ∧ 0 ≠ s.pc.toNat ∧ 0 ≠ s.pc.toNat + 1 := by decide

theorem wit_HaltEndsTheRun : State.reset.mode = .running ∧ Fetches State.reset 0x0000#16 := by unfold Fetches; decide

theorem wit_JumpLoadsTheAddress :
    State.reset.mode = .running ∧ State.reset.memSize ≤ (0xFFF#12).toNat + 1 := by decide

/-- The last free slot, and the full stack. -/
theorem wit_CallPushesTheReturnAddress :
    (withSp State.reset 15).sp < (withSp State.reset 15).stackDepth ∧
    (withSp State.reset 16).sp = (withSp State.reset 16).stackDepth := by decide

/-- The register forms' field `n`, at its lowest and highest value other than 0. -/
theorem wit_CompareSkipsMovePc : 0x1#4 ≠ 0#4 ∧ 0xF#4 ≠ 0#4 := by decide

theorem wit_ReturnPopsTheReturnAddress :
    (0 < (withSp State.reset 1).sp ∧ (withSp State.reset 1).sp ≤ (withSp State.reset 1).stackDepth) ∧
    (0 < (withSp State.reset 16).sp ∧ (withSp State.reset 16).sp ≤ (withSp State.reset 16).stackDepth) ∧
    State.reset.sp = 0 := by decide

/-- The call from the last free slot, and a state after it with other registers. -/
theorem wit_CallThenReturnRestores :
    let s := withSp State.reset 15
    s.sp < s.stackDepth ∧ ∃ t, exec (.call 0x100#12) s = .next t ∧
      ((t.writeV 3 7#8).setPc 0x100#16).sp = t.sp ∧ ((t.writeV 3 7#8).setPc 0x100#16).stack = t.stack :=
  ⟨by decide, _, rfl, rfl, rfl⟩

theorem wit_SysAlwaysFaults : 0x001#12 ≠ 0x000#12 ∧ 0x001#12 ≠ 0x0E0#12 ∧ 0x001#12 ≠ 0x0EE#12 := by decide

/-- The hypothesis of AddsSetTheCarry, SubtractionsSetNoBorrow, ShiftsKeepTheBitShiftedOut and ShiftRoundTrips. -/
theorem wit_destination_other_than_VF : (14 : Reg) ≠ regVF ∧ (0 : Reg) ≠ regVF := by decide

theorem wit_RandomByteIsMasked :
    ({ State.reset with draws := [0xA7#8, 0x01#8] } : State).draws = 0xA7#8 :: [0x01#8] := rfl

/-- No row at an index outside memory, one row at the last byte, fifteen rows at the last place that holds them. -/
theorem wit_DrawFlipsTheSpriteCells :
    spriteInMemory (State.reset.setI 0xFFFF#16) 0#4 ∧ spriteInMemory (State.reset.setI 0x0FFF#16) 1#4 ∧
    spriteInMemory (State.reset.setI 0x0FF1#16) 15#4 := by unfold spriteInMemory; decide

/-- A covered cell across both edges, and a cell just past the rectangle. -/
theorem wit_DrawFlipsTheSpriteCells_cells :
    let s := (State.reset.writeV 0 63#8).writeV 1 31#8
    covered s 0 1 2#4 6 0 ∧ ¬ covered s 0 1 2#4 7 0 ∧ ¬ covered s 0 1 2#4 6 1 := by unfold covered; decide

/-- Under each rule a draw that sets the flag and a draw that does not (2.6 vectors a, b, e and j). -/
theorem wit_DrawCollisionFlag :
    let s := poke (State.reset.setI 0x300#16) 0x300 0xFF#8
    let lt := withRule s .literal
    let zero := withRule State.reset .literal
    (spriteInMemory s 1#4 ∧ s.collisionRule = .standard ∧
      ∃ t, exec (.drw 0 1 1#4) s = .next t ∧ t.readV regVF ≠ 1#8) ∧
    (spriteInMemory (lit s 1 0) 1#4 ∧ (lit s 1 0).collisionRule = .standard ∧
      ∃ t, exec (.drw 0 1 1#4) (lit s 1 0) = .next t ∧ t.readV regVF = 1#8) ∧
    (spriteInMemory lt 1#4 ∧ lt.collisionRule = .literal ∧
      ∃ t, exec (.drw 0 1 1#4) lt = .next t ∧ t.readV regVF ≠ 1#8) ∧
    (spriteInMemory zero 1#4 ∧ zero.collisionRule = .literal ∧
      ∃ t, exec (.drw 0 1 1#4) zero = .next t ∧ t.readV regVF = 1#8) := by
  refine ⟨⟨?_, rfl, _, rfl, by decide⟩, ⟨?_, rfl, _, rfl, by decide⟩, ⟨?_, rfl, _, rfl, by decide⟩,
    ?_, rfl, _, rfl, by decide⟩ <;> (unfold spriteInMemory; decide)

/-- A second draw from the first one's own next state, and with `VF` as both coordinates, its value given back. -/
theorem wit_DrawTwiceRestoresTheDisplay :
    let s := poke (State.reset.setI 0x300#16) 0x300 0x80#8
    let s' := s.writeV 15 5#8
    spriteInMemory s 1#4 ∧ s.collisionRule = .standard ∧
    (∃ t, exec (.drw 0 1 1#4) s = .next t ∧ t.mem = s.mem ∧ t.memSize = s.memSize ∧ t.i = s.i ∧
      t.collisionRule = s.collisionRule ∧ t.readV 0 = s.readV 0 ∧ t.readV 1 = s.readV 1) ∧
    (∃ t, exec (.drw 15 15 1#4) s' = .next t ∧ (t.writeV 15 5#8).disp = t.disp ∧
      (t.writeV 15 5#8).readV 15 = s'.readV 15) ∧
    spriteInMemory (withRule s .literal) 1#4 ∧ (withRule s .literal).collisionRule = .literal := by
  refine ⟨by unfold spriteInMemory; decide, rfl, ⟨_, rfl, by decide⟩, ⟨_, rfl, rfl, by decide⟩,
    by unfold spriteInMemory; decide, rfl⟩

/-- One row at the first address outside memory, and two rows of which the second is outside. -/
theorem wit_DrawOutsideMemoryFaults :
    ¬ spriteInMemory (State.reset.setI 0x1000#16) 1#4 ∧ ¬ spriteInMemory (State.reset.setI 0x0FFF#16) 2#4 := by
  unfold spriteInMemory; decide

/-- The lowest and the highest key, one pressed and one released. -/
theorem wit_KeySkipsReadTheKey :
    (State.reset.readV 0).toNat = (0 : Fin 16).val ∧ State.reset.keyRead 0 = false ∧
    (((State.reset.writeV 0 15#8).setKey 15 true).readV 0).toNat = (15 : Fin 16).val ∧
    ((State.reset.writeV 0 15#8).setKey 15 true).keyRead 15 = true := by decide

theorem wit_KeyIndexAboveFifteenFaults :
    15 < ((State.reset.writeV 0 16#8).readV 0).toNat ∧ 15 < ((State.reset.writeV 15 255#8).readV 15).toNat := by decide

theorem wit_UnimplementedOpcodesFault (x : Reg) :
    (Instr.fx0a x, 0x0A) ∈ [(Instr.fx0a x, 0x0A), (.fx29 x, 0x29), (.fx33 x, 0x33), (.fx55 x, 0x55), (.fx65 x, 0x65)] ∧
    (Instr.fx65 x, 0x65) ∈ [(Instr.fx0a x, 0x0A), (.fx29 x, 0x29), (.fx33 x, 0x33), (.fx55 x, 0x55), (.fx65 x, 0x65)] := by
  simp

/-- Both clauses, at the edges of the conditional causes. -/
theorem wit_FaultConditionsAreThoseOfTheTable :
    (withSp State.reset 16).sp ≤ (withSp State.reset 16).stackDepth ∧
    raises (.call 0x100#12) (withSp State.reset 16) = some 4#3 ∧
    raises (.call 0x100#12) (withSp State.reset 15) = none ∧
    raises .ret State.reset = some 5#3 ∧ raises .ret (withSp State.reset 1) = none ∧
    raises (.drw 0 1 1#4) (State.reset.setI 0x1000#16) = some 6#3 ∧
    raises (.drw 0 1 1#4) (State.reset.setI 0x0FFF#16) = none ∧
    raises (.skp 0) (State.reset.writeV 0 16#8) = some 7#3 ∧
    raises (.sknp 0) (State.reset.writeV 0 15#8) = none := by decide

/-- A step that faults at the fetch, one at the decode and one at the execution. -/
theorem wit_FaultsArePrecise :
    (∃ t, step (State.reset.setPc 0x0FFF#16) = .next t ∧ t.mode = .faulted) ∧
    (∃ t, step (State.reset.withFetchWord 16 0x5001) = .next t ∧ t.mode = .faulted) ∧
    (∃ t, step (State.reset.withFetchWord 16 0x00EE) = .next t ∧ t.mode = .faulted) :=
  ⟨⟨_, rfl, rfl⟩, ⟨_, rfl, rfl⟩, _, rfl, rfl⟩

/-- A flag writer that does not fault, and an instruction that is none. -/
theorem wit_OnlyFlagWritersChangeVF :
    (∃ t, exec (.addReg 1 2) State.reset = .next t) ∧ writesFlag (.addReg 1 2) = true ∧
    raises (.addReg 1 2) State.reset = none ∧
    (∃ t, exec (.orReg 1 15) State.reset = .next t) ∧ writesFlag (.orReg 1 15) = false ∧
    destination (.orReg 1 15) ≠ some regVF := ⟨⟨_, rfl⟩, rfl, rfl, ⟨_, rfl⟩, rfl, by decide⟩

/-- One instruction that meets every clause's premise at once, with a register that it does not name. -/
theorem wit_EachPartHasItsWriters :
    let i := Instr.orReg 1 2
    (∃ t, exec i State.reset = .next t) ∧ (∀ x y n, i ≠ .drw x y n) ∧ i ≠ .cls ∧ (∀ addr, i ≠ .call addr) ∧
    i ≠ .ret ∧ (∀ x, i ≠ .ldDtVx x) ∧ (∀ x, i ≠ .ldStVx x) ∧ (∀ addr, i ≠ .ldI addr) ∧ (∀ x, i ≠ .addI x) ∧
    (∀ x kk, i ≠ .rnd x kk) ∧ (∀ addr, i ≠ .jp addr) ∧ (∀ addr, i ≠ .jpV0 addr) ∧ (∀ x kk, i ≠ .seImm x kk) ∧
    (∀ x kk, i ≠ .sneImm x kk) ∧ (∀ x y, i ≠ .seReg x y) ∧ (∀ x y, i ≠ .sneReg x y) ∧ (∀ x, i ≠ .skp x) ∧
    (∀ x, i ≠ .sknp x) ∧ i ≠ .halt ∧ raises i State.reset = none ∧ destination i ≠ some 15 ∧
    writesFlag i = false := by
  refine ⟨⟨_, rfl⟩, ?_⟩
  simp [destination, writesFlag, raises]

theorem wit_KeysAreReadByKeySkipsOnly :
    (∀ x, Instr.ldDtVx 3 ≠ .skp x) ∧ (∀ x, Instr.ldDtVx 3 ≠ .sknp x) := by simp

/-- Both directions of the equivalence: the reset state halts, another word does not. -/
theorem wit_OnlyTheZeroWordHalts :
    (State.reset.mode = .running ∧ ∃ t, step State.reset = .next t ∧ t.mode = .halted) ∧
    ((State.reset.withFetchWord 16 0x6005).mode = .running ∧
      ∃ t, step (State.reset.withFetchWord 16 0x6005) = .next t ∧ t.mode = .running) :=
  ⟨⟨rfl, _, rfl, rfl⟩, rfl, _, rfl, rfl⟩

/-- A Running state with a call outstanding, memory in use and an odd `PC`. -/
def busy : State := poke (poke ((State.reset.push 0x002#16).setPc 0x205#16) 0x205 0x6F#8) 0x206 0x05#8

/-- The hypotheses of RunningMachineAlwaysSteps, StepKeepsTheInvariant and SchedulesKeepTheInvariant. -/
theorem wit_Inv_busy : Inv busy ∧ busy.mode = .running ∧ (∃ t, step busy = .next t) ∧
    ∃ t, runMoves [.timerTick, .cpuTick, .keyChange 7 true] busy = .next t :=
  ⟨⟨by decide, by decide, by decide, by decide, by decide, by decide,
    by simp [busy, poke, State.push, State.setPc, State.reset, Config.reference],
    Nat.le_trans (by decide) (Nat.le_max_right _ _), by decide⟩,
    rfl, ⟨_, rfl⟩, _, rfl⟩

/-- The invariant also holds in a Faulted state, whose cause it speaks of. -/
theorem wit_Inv_faulted : Inv (State.reset.raise .keyIndex 0xE19E#16 0x010#16) :=
  ⟨by decide, by decide, by decide, by decide, by decide, by decide, by simp [State.raise, State.reset],
    Nat.le_trans (by decide) (Nat.le_max_right _ _), by decide⟩

/-- A launch with the smallest stack, a full-range image of two bytes and the other collision rule. -/
def someLaunch : Launch where
  params := { memSize := 65532, stackDepth := 1, collisionRule := .literal }
  image := [0x60#8, 0x05#8]
  display := Display.write Display.blank 3 3 true
  draws := [0xA7#8]

theorem wit_ResetLeavesTheSpecsValues :
    (∃ t, launch someLaunch busy = .next t) ∧ State.reset = State.reset := ⟨⟨_, rfl⟩, rfl⟩

theorem wit_LaunchLoadsTheImage :
    (∃ t, launch someLaunch busy = .next t) ∧ someLaunch.image[1]? = some 0x05#8 ∧ someLaunch.image.length ≤ 2 :=
  ⟨⟨_, rfl⟩, rfl, by decide⟩

theorem wit_LaunchAcceptsTheAllowedConfigurations :
    (4096 ≤ someLaunch.params.memSize ∧ someLaunch.params.memSize ≤ 65532 ∧ 1 ≤ someLaunch.params.stackDepth ∧
      someLaunch.image.length ≤ someLaunch.params.memSize) ∧
    ∃ t, hostMove (.resetWith someLaunch) busy = .next t := ⟨by decide, _, rfl⟩

/-- A move for each clause: one that is no tick, one that is no key change, a key change and another key. -/
theorem wit_HostMovesTouchTimersAndKeysOnly :
    HostMove.keyChange 7 true ≠ .cpuTick ∧ (∀ l, HostMove.keyChange 7 true ≠ .resetWith l) ∧
    HostMove.keyChange 7 true ≠ .timerTick ∧ (∀ k b, HostMove.timerTick ≠ .keyChange k b) ∧
    HostMove.timerTick ≠ .cpuTick ∧ (∀ l, HostMove.timerTick ≠ .resetWith l) ∧ (6 : Fin 16) ≠ 7 := by
  simp

theorem wit_MemoryIsConstantDuringARun :
    (∀ l, HostMove.resetWith l ∉ [HostMove.timerTick, .cpuTick, .keyChange 7 true]) ∧
    ∃ t, runMoves [.timerTick, .cpuTick, .keyChange 7 true] busy = .next t := ⟨by simp, _, rfl⟩

/-- The same memory built in two orders. -/
theorem wit_CanonicalMemoryIsUnique :
    let m := Memory.write (Memory.write [] 5 1#8) 0xFFF 2#8
    let m' := Memory.write (Memory.write [] 0xFFF 2#8) 5 1#8
    Memory.wf m = true ∧ Memory.wf m' = true ∧ m = [(5, 1#8), (0xFFF, 2#8)] ∧ ∀ a, Memory.read m a = Memory.read m' a :=
  ⟨rfl, rfl, rfl, fun _ => rfl⟩

end Sys2Proof.Tests
end

section
/-! The invariant under each named update of the state, under each meaning, and under a step from Running (O47). -/

namespace Sys2Proof.Safety

open Sys2Proof.Machine

variable {s : State}

/-! ### One rule for each update of the state -/

theorem Inv.setPc (h : Inv s) {a : Word} (ha : a.toNat ≤ max (s.memSize + 2) 0x10FE) : Inv (s.setPc a) :=
  { h with pc_le := ha }

/-- The first bound of R27: two bytes past the end of memory, where a skip over the last word lands. -/
theorem Inv.setPc_of_le (h : Inv s) {a : Word} (ha : a.toNat ≤ s.memSize + 2) : Inv (s.setPc a) :=
  h.setPc (ha.trans (le_max_left _ _))

theorem Inv.writeV (h : Inv s) (r : Reg) (b : Byte) : Inv (s.writeV r b) := { h with }

theorem Inv.writeResultFlag (h : Inv s) (x : Reg) (r : Byte × Bool) : Inv (s.writeResultFlag x r) := { h with }

theorem Inv.setI (h : Inv s) (a : Word) : Inv (s.setI a) := { h with }

theorem Inv.setDt (h : Inv s) (b : Byte) : Inv (s.setDt b) := { h with }

theorem Inv.setSt (h : Inv s) (b : Byte) : Inv (s.setSt b) := { h with }

theorem Inv.setDisp (h : Inv s) (d : Display) : Inv (s.setDisp d) := { h with }

theorem Inv.randomByte (h : Inv s) : Inv s.randomByte.2 := by
  cases hd : s.draws with
  | nil => rw [State.randomByte_free s hd]; exact { h with }
  | cons b rest => rw [State.randomByte_supplied s b rest hd]; exact { h with }

theorem Inv.halt (h : Inv s) : Inv s.halt := { h with cause_recorded := nofun }

/-- The codes of R182 start at 1. -/
theorem faultCause_code_ne_zero (c : FaultCause) : c.code ≠ 0#3 := by cases c <;> decide

theorem Inv.raise (h : Inv s) (c : FaultCause) (word addr : Word) : Inv (s.raise c word addr) :=
  { h with cause_recorded := fun _ => faultCause_code_ne_zero c }

theorem Inv.raiseIn (h : Inv s) (c : FaultCause) (ins : Instr) : Inv (s.raiseIn c ins) := h.raise c _ _

/-- The slot written becomes the last live one, the slots below it are kept (R102). -/
theorem take_push (hsp : s.sp < s.stackDepth) (a : Word) :
    (s.push a).stack.take (s.push a).sp = s.stack.take s.sp ++ [a] := by
  unfold State.stackDepth at hsp
  simp [State.push, List.take_add_one, List.take_set_of_le, hsp]

theorem Inv.push (h : Inv s) (hsp : s.sp < s.stackDepth) {a : Word} (ha : a.toNat ≤ s.memSize) : Inv (s.push a) :=
  { h with
    stackDepth_pos := (State.push_stackDepth s a).symm ▸ h.stackDepth_pos
    sp_le := (State.push_stackDepth s a).symm ▸ hsp
    returns_le := by
      intro b hb
      rw [take_push hsp, List.mem_append, List.mem_singleton] at hb
      rcases hb with hb | rfl
      · exact h.returns_le b hb
      · exact ha }

theorem Inv.pop (h : Inv s) : Inv s.pop :=
  { h with
    sp_le := (Nat.sub_le _ _).trans h.sp_le
    returns_le := fun a ha => h.returns_le a (List.take_subset_take_left _ (Nat.sub_le _ _) ha) }

/-- The slot `RET` pops is a live return address (R104). -/
theorem Inv.topSlot_le (h : Inv s) (h0 : 0 < s.sp) {a : Word} (ha : s.topSlot = some a) : a.toNat ≤ s.memSize := by
  refine h.returns_le a (List.mem_of_getElem? (i := s.sp - 1) ?_)
  rw [List.getElem?_take_of_lt (by omega)]
  exact ha

/-! ### The targets of `PC` (R27) -/

@[simp] theorem zextAddr_toNat (addr : Addr12) : (zextAddr addr).toNat = addr.toNat :=
  BitVec.toNat_setWidth_of_le (by decide)

@[simp] theorem zextByte_toNat (b : Byte) : (zextByte b).toNat = b.toNat :=
  BitVec.toNat_setWidth_of_le (by decide)

/-- The target of `JP` and `CALL` is at most `0xFFF`. -/
theorem Inv.setPc_zextAddr (h : Inv s) (addr : Addr12) : Inv (s.setPc (zextAddr addr)) := by
  have := addr.isLt
  refine h.setPc ?_
  rw [zextAddr_toNat]
  omega

/-- The target of `JP V0` is at most `0xFFF + 0xFF`, the second bound of R27. -/
theorem Inv.setPc_zextAddr_add (h : Inv s) (addr : Addr12) (b : Byte) :
    Inv (s.setPc (zextAddr addr + zextByte b)) := by
  have := addr.isLt
  have := b.isLt
  refine h.setPc ?_
  rw [BitVec.toNat_add, zextAddr_toNat, zextByte_toNat]
  omega

/-- Moving on by 2 does not raise `PC` by more than 2, wrapped or not. -/
theorem toNat_add_two_le (a : Word) : (a + 2#16).toNat ≤ a.toNat + 2 := by
  rw [BitVec.toNat_add]; exact Nat.mod_le _ _

/-- After the fetch increment `PC` is at most `MEM_SIZE` (R26, R27). -/
theorem advance_pc_le {w : Word} (hf : s.fetch = some w) : s.advance.pc.toNat ≤ s.advance.memSize := by
  have hin := ((State.fetch_eq_some s w).1 hf).1
  have := toNat_add_two_le s.pc
  simp only [State.advance_pc, State.advance_memSize]
  omega

theorem Inv.advance (h : Inv s) {w : Word} (hf : s.fetch = some w) : Inv s.advance :=
  h.setPc_of_le ((advance_pc_le hf).trans (Nat.le_add_right _ 2))

/-! ### The meanings -/

/-- The answer is a next state, and that state meets the invariant. -/
def NextInv (r : Result) : Prop := ∃ t, r = .next t ∧ Inv t

theorem NextInv.of_next {t : State} (h : Inv t) : NextInv (.next t) := ⟨t, rfl, h⟩

section OnEntry
/-! What holds on entry to `exec`: the invariant, and `PC`, the instruction's address plus 2, at most `MEM_SIZE`. -/

variable (h : Inv s) (hpc : s.pc.toNat ≤ s.memSize)
include h hpc

theorem Inv.setPc_skip (c : Bool) : Inv (s.setPc (if c then s.pc + 2#16 else s.pc)) := by
  cases c with
  | false => exact h.setPc h.pc_le
  | true => exact h.setPc_of_le ((toNat_add_two_le s.pc).trans (Nat.add_le_add_right hpc 2))

theorem skipIf_nextInv (c : Bool) : NextInv (skipIf c s) :=
  ⟨_, skipIf_next c s, h.setPc_skip hpc c⟩

theorem execCall_nextInv (addr : Addr12) : NextInv (execCall addr s) := by
  rcases execCall_cases addr s with ⟨-, he⟩ | ⟨hsp, he⟩ | ⟨hsp, -⟩
  · exact ⟨_, he, h.raiseIn _ _⟩
  · exact ⟨_, he, (h.push hsp hpc).setPc_zextAddr addr⟩
  · exact absurd h.sp_le (Nat.not_le_of_lt hsp)

omit hpc in
theorem execRet_nextInv : NextInv (execRet s) := by
  rcases execRet_cases s with ⟨-, he⟩ | ⟨h0, a, ha, he⟩ | ⟨hsp, -⟩
  · exact ⟨_, he, h.raiseIn _ _⟩
  · have hle : a.toNat ≤ s.memSize := h.topSlot_le h0 ha
    exact ⟨_, he, h.pop.setPc_of_le (hle.trans (Nat.le_add_right _ 2))⟩
  · exact absurd h.sp_le (Nat.not_le_of_lt hsp)

omit hpc in
theorem execDrw_nextInv (x y : Reg) (n : Nibble) : NextInv (execDrw x y n s) := by
  rcases execDrw_cases x y n s with ⟨-, he⟩ | ⟨_, -, he⟩
  · exact ⟨_, he, h.raiseIn _ _⟩
  · exact ⟨_, he, (h.setDisp _).writeV _ _⟩

theorem execSkp_nextInv (x : Reg) : NextInv (execSkp x s) := by
  rcases execSkp_cases x s with ⟨-, he⟩ | ⟨_, he⟩
  · exact ⟨_, he, h.raiseIn _ _⟩
  · exact ⟨_, he, h.setPc_skip hpc _⟩

theorem execSknp_nextInv (x : Reg) : NextInv (execSknp x s) := by
  rcases execSknp_cases x s with ⟨-, he⟩ | ⟨_, he⟩
  · exact ⟨_, he, h.raiseIn _ _⟩
  · exact ⟨_, he, h.setPc_skip hpc _⟩

/-- Every instruction has a next state that meets the invariant, grouped by the update it makes. -/
theorem exec_nextInv (i : Instr) : NextInv (exec i s) := by
  cases i with
  | halt => exact .of_next h.halt
  | cls => exact .of_next (h.setDisp _)
  | jp addr => exact .of_next (h.setPc_zextAddr addr)
  | jpV0 addr => exact .of_next (h.setPc_zextAddr_add addr _)
  | call addr => exact execCall_nextInv h hpc addr
  | ret => exact execRet_nextInv h
  | seImm | sneImm | seReg | sneReg => exact skipIf_nextInv h hpc _
  | skp x => exact execSkp_nextInv h hpc x
  | sknp x => exact execSknp_nextInv h hpc x
  | ldImm | ldReg | orReg | andReg | xorReg | ldVxDt => exact .of_next (h.writeV _ _)
  | addImm | addReg | sub | shr | subn | shl => exact .of_next (h.writeResultFlag _ _)
  | rnd => exact .of_next (h.randomByte.writeV _ _)
  | drw x y n => exact execDrw_nextInv h x y n
  | ldI | addI => exact .of_next (h.setI _)
  | ldDtVx => exact .of_next (h.setDt _)
  | ldStVx => exact .of_next (h.setSt _)
  | sys | fx0a | fx29 | fx33 | fx55 | fx65 => exact .of_next (h.raiseIn _ _)

end OnEntry

/-- A fetch outside memory and an undecodable word enter a fault; every other word is executed (R220). -/
theorem step_nextInv (h : Inv s) (hm : s.mode = .running) : NextInv (step s) := by
  rcases step_cases s with ⟨hm', -⟩ | ⟨hm', -⟩ | ⟨-, -, hs⟩ | ⟨-, w, hf, -, hs⟩ | ⟨-, w, i, hf, -, hs⟩
  · cases hm.symm.trans hm'
  · cases hm.symm.trans hm'
  · exact ⟨_, hs, h.raise _ _ _⟩
  · exact ⟨_, hs, (h.advance hf).raise _ _ _⟩
  · rw [hs]; exact exec_nextInv (h.advance hf) (advance_pc_le hf) i

/-- Settles O47: the invariant and the fetch bound give what `exec` needs on entry, and every instruction then keeps
the invariant. -/
theorem runningMachineAlwaysSteps : Obligations.RunningMachineAlwaysSteps :=
  fun _ h hm => step_nextInv h hm

end Sys2Proof.Safety
end

section
/-! The invariant under a step, under every move of the host, and along a schedule (O54, O55). -/

namespace Sys2Proof.Safety

open Sys2Proof.Machine

variable {s t : State}

/-- Only a Running machine has a next state (R33, R220). -/
theorem mode_running_of_step (h : step s = .next t) : s.mode = .running := by
  rcases step_cases s with ⟨-, hs⟩ | ⟨-, hs⟩ | ⟨hm, -⟩ | ⟨hm, -⟩ | ⟨hm, -⟩
  · cases hs.symm.trans h
  · cases hs.symm.trans h
  · exact hm
  · exact hm
  · exact hm

theorem Inv.of_step (h : Inv s) (hs : step s = .next t) : Inv t := by
  obtain ⟨u, hu, hinv⟩ := step_nextInv h (mode_running_of_step hs)
  cases hu.symm.trans hs
  exact hinv

/-- Settles O54: only a Running machine steps, and its step answers a state that meets the invariant. -/
theorem stepKeepsTheInvariant : Obligations.StepKeepsTheInvariant :=
  fun _ _ h hs => h.of_step hs

/-! ### The moves of the host -/

theorem Inv.timerTick (h : Inv s) : Inv s.timerTick := { h with }

theorem Inv.setKey (h : Inv s) (k : Fin 16) (b : Bool) : Inv (s.setKey k b) := { h with }

/-- The configurations a launch accepts, and the state it then gives (R210, R211; U2, U3, U28). -/
theorem launch_eq_next (l : Launch) :
    launch l s = .next t ↔
      (Config.minMemSize ≤ l.params.memSize ∧ l.params.memSize ≤ Config.maxMemSize ∧ 1 ≤ l.params.stackDepth ∧
        l.image.length ≤ l.params.memSize) ∧ t = launchState l s := by
  unfold launch
  split_ifs with hsize hdepth himage
  · exact ⟨nofun, fun ⟨hok, _⟩ => by omega⟩
  · exact ⟨nofun, fun ⟨hok, _⟩ => by omega⟩
  · exact ⟨nofun, fun ⟨hok, _⟩ => by omega⟩
  · exact ⟨fun h => ⟨by omega, by cases h; rfl⟩, fun ⟨_, ht⟩ => by rw [ht]⟩

/-- A launch gives a state that meets the invariant, whatever the state before it: the image is loaded into empty memory
from address 0 on, the stack is empty and `PC` is 0. -/
theorem inv_of_launch {l : Launch} (h : launch l s = .next t) : Inv t := by
  obtain ⟨⟨hmin, hmax, hdepth, himage⟩, rfl⟩ := (launch_eq_next l).1 h
  exact
    { memSize_ge := hmin
      memSize_le := hmax
      stackDepth_pos := hdepth.trans_eq List.length_replicate.symm
      sp_le := Nat.zero_le _
      mem_wf := Memory.wf_launch l s
      mem_inside := fun c hc => by
        rcases Memory.mem_load [] 0 l.image c hc with ⟨-, hlt⟩ | hnil
        · exact ((Nat.zero_add _ ▸ hlt).trans_le himage)
        · cases hnil
      returns_le := nofun
      pc_le := Nat.zero_le _
      cause_recorded := nofun }

theorem Inv.of_hostMove (h : Inv s) {m : HostMove} (hm : hostMove m s = .next t) : Inv t := by
  cases m with
  | cpuTick => exact h.of_step hm
  | resetWith l => exact inv_of_launch hm
  | timerTick => cases hm; exact h.timerTick
  | keyChange k b => cases hm; exact h.setKey k b
  | readOut | stopTicking => cases hm; exact h

/-! ### Schedules -/

theorem runMoves_cons_eq_next {m : HostMove} {ms : List HostMove} :
    runMoves (m :: ms) s = .next t ↔ ∃ u, hostMove m s = .next u ∧ runMoves ms u = .next t := by
  rw [runMoves]
  cases hostMove m s with
  | next u => exact ⟨fun h => ⟨u, rfl, h⟩, fun ⟨_, hu, h⟩ => by cases hu; exact h⟩
  | fault f => exact ⟨nofun, nofun⟩
  | refused r => exact ⟨nofun, nofun⟩

/-- What every move of a schedule keeps, the schedule keeps. -/
theorem runMoves_induction {P : State → Prop} {ms : List HostMove}
    (keeps : ∀ m ∈ ms, ∀ s t, P s → hostMove m s = .next t → P t) (h : P s) (hr : runMoves ms s = .next t) : P t := by
  induction ms generalizing s with
  | nil => cases hr; exact h
  | cons m ms ih =>
    obtain ⟨u, hu, hr⟩ := runMoves_cons_eq_next.1 hr
    exact ih (fun m' hm' => keeps m' (List.mem_cons_of_mem m hm')) (keeps m List.mem_cons_self s u h hu) hr

/-- Settles O55, by induction on the schedule. -/
theorem schedulesKeepTheInvariant : Obligations.SchedulesKeepTheInvariant :=
  fun _ _ _ h hr => runMoves_induction (fun _ _ _ _ h hm => h.of_hostMove hm) h hr

end Sys2Proof.Safety
end

section
/-! What an instruction writes: the parts of the state and the registers, where it raises no fault, and the fault entry
where it raises one (O42, O43). -/

namespace Sys2Proof.Safety

open Sys2Proof.Machine

variable {s t u : State} {i : Instr}

/-! ### Frames -/

/-- From `s` to `t` no part changes outside `ps`, and no general register outside `rs`. -/
structure Changes (ps : List Part) (rs : List Reg) (s t : State) : Prop where
  parts : SameExcept ps s t
  regs : RegsExcept rs s t

theorem SamePart.trans {p : Part} (h : SamePart p s t) (h' : SamePart p t u) : SamePart p s u := by
  cases p with
  | pc | index | delay | sound | mode => exact Eq.trans h' h
  | regs | keys | memory => exact fun a => (h' a).trans (h a)
  | display => exact fun px py => (h' px py).trans (h px py)
  | stack | params | draws => exact ⟨h'.1.trans h.1, h'.2.trans h.2⟩
  | faultRecord =>
    obtain ⟨hc, hw, ha⟩ := h
    obtain ⟨hc', hw', ha'⟩ := h'
    exact ⟨hc'.trans hc, hw'.trans hw, ha'.trans ha⟩

theorem Changes.trans {ps ps' : List Part} {rs rs' : List Reg} (h : Changes ps rs s t) (h' : Changes ps' rs' t u) :
    Changes (ps ++ ps') (rs ++ rs') s u where
  parts p hp := by
    rw [List.mem_append, not_or] at hp
    exact (h.parts p hp.1).trans (h'.parts p hp.2)
  regs r hr := by
    rw [List.mem_append, not_or] at hr
    exact (h'.regs r hr.2).trans (h.regs r hr.1)

/-- An update that leaves the registers alone. The default proof of its frame goes through the parts one by one, by the
field lemmas of the update. -/
theorem Changes.of_parts {ps : List Part}
    (h : SameExcept ps s t := by intro p hp; cases p <;> simp_all [SamePart])
    (hr : Part.regs ∉ ps := by decide) : Changes ps [] s t :=
  ⟨h, fun r _ => h .regs hr r⟩

/-! ### One frame for each update of the state -/

theorem changes_writeV (s : State) (r : Reg) (b : Byte) : Changes [.regs] [r] s (s.writeV r b) where
  parts p hp := by cases p <;> simp_all [SamePart]
  regs q hq := State.readV_writeV_ne s r q b (by simpa using hq)

theorem changes_writeResultFlag (s : State) (x : Reg) (r : Byte × Bool) :
    Changes [.regs] [x, regVF] s (s.writeResultFlag x r) where
  parts p hp := by cases p <;> simp_all [SamePart]
  regs q hq := by
    rw [List.mem_pair, not_or] at hq
    rw [State.readV_writeResultFlag, if_neg hq.2, if_neg hq.1]

theorem changes_setPc (s : State) (a : Word) : Changes [.pc] [] s (s.setPc a) := .of_parts

theorem changes_setI (s : State) (a : Word) : Changes [.index] [] s (s.setI a) := .of_parts

theorem changes_setDt (s : State) (b : Byte) : Changes [.delay] [] s (s.setDt b) := .of_parts

theorem changes_setSt (s : State) (b : Byte) : Changes [.sound] [] s (s.setSt b) := .of_parts

theorem changes_setDisp (s : State) (d : Display) : Changes [.display] [] s (s.setDisp d) := .of_parts

theorem changes_push (s : State) (a : Word) : Changes [.stack] [] s (s.push a) := .of_parts

theorem changes_pop (s : State) : Changes [.stack] [] s s.pop := .of_parts

theorem changes_randomByte (s : State) : Changes [.draws] [] s s.randomByte.2 := .of_parts

theorem changes_halt (s : State) : Changes [.mode] [] s s.halt := .of_parts

theorem changes_raiseIn (s : State) (c : FaultCause) (ins : Instr) :
    Changes [.mode, .faultRecord] [] s (s.raiseIn c ins) := .of_parts

/-! ### What an instruction writes -/

/-- The parts that an instruction writes where it raises no fault (R22, R24, R28 to R33, R57, R142). -/
def writtenParts : Instr → List Part
  | .halt => [.mode]
  | .cls => [.display]
  | .drw _ _ _ => [.display, .regs]
  | .call _ | .ret => [.stack, .pc]
  | .jp _ | .jpV0 _ => [.pc]
  | .seImm _ _ | .sneImm _ _ | .seReg _ _ | .sneReg _ _ | .skp _ | .sknp _ => [.pc]
  | .ldI _ | .addI _ => [.index]
  | .ldDtVx _ => [.delay]
  | .ldStVx _ => [.sound]
  | .rnd _ _ => [.draws, .regs]
  | .ldImm _ _ | .ldReg _ _ | .orReg _ _ | .andReg _ _ | .xorReg _ _ | .ldVxDt _ => [.regs]
  | .addImm _ _ | .addReg _ _ | .sub _ _ | .shr _ _ | .subn _ _ | .shl _ _ => [.regs]
  | .sys _ | .fx0a _ | .fx29 _ | .fx33 _ | .fx55 _ | .fx65 _ => []

/-- The general registers that an instruction writes: its destination, and `VF` for a flag writer (R22). -/
def writtenRegs (i : Instr) : List Reg := (destination i).toList ++ if writesFlag i then [regVF] else []

theorem mem_writtenRegs {r : Reg} : r ∈ writtenRegs i ↔ destination i = some r ∨ writesFlag i = true ∧ r = regVF := by
  unfold writtenRegs
  split_ifs with hf <;> simp [hf]

/-- `i` ran from `s` to `t` without a fault. -/
structure Completes (i : Instr) (s t : State) : Prop where
  no_fault : raises i s = none
  changes : Changes (writtenParts i) (writtenRegs i) s t
  flag : writesFlag i = true → ∃ f, t.readV regVF = flagByte f

/-- `i` took `s` to `t` by the fault that the table of R182 gives for it. -/
def Faults (i : Instr) (s t : State) : Prop := ∃ c : FaultCause, raises i s = some c.code ∧ t = s.raiseIn c i

theorem writeResultFlag_completes {x : Reg} (r : Byte × Bool) (h0 : raises i s = none) (hp : writtenParts i = [.regs])
    (hr : writtenRegs i = [x, regVF]) : Completes i s (s.writeResultFlag x r) where
  no_fault := h0
  changes := by rw [hp, hr]; exact changes_writeResultFlag s x r
  flag _ := ⟨r.2, by rw [State.readV_writeResultFlag, if_pos rfl]⟩

/-- Where `DRW` finds a sprite byte outside memory, as `raises` states it (R151, R182). -/
theorem spriteRows_eq_none (s : State) (base n : Nat) :
    s.spriteRows base n = none ↔ 0 < n ∧ s.memSize < base + n := by
  unfold State.spriteRows
  split_ifs with h
  · simp; omega
  · simp; omega

theorem raises_drw_eq_none {x y : Reg} {n : Nibble} {rows : List Byte}
    (h : s.spriteRows s.i.toNat n.toNat = some rows) : raises (.drw x y n) s = none :=
  if_neg fun hout => nomatch h.symm.trans ((spriteRows_eq_none s _ _).2 hout)

theorem execCall_next {addr : Addr12} (h : execCall addr s = .next t) :
    Faults (.call addr) s t ∨ Completes (.call addr) s t := by
  rcases execCall_cases addr s with ⟨hfull, he⟩ | ⟨hsp, he⟩ | ⟨-, he⟩
  · cases he.symm.trans h
    exact .inl ⟨.stackOverflow, if_pos hfull, rfl⟩
  · cases he.symm.trans h
    exact .inr ⟨if_neg hsp.ne, (changes_push s _).trans (changes_setPc _ _), nofun⟩
  · cases he.symm.trans h

theorem execRet_next (h : execRet s = .next t) : Faults .ret s t ∨ Completes .ret s t := by
  rcases execRet_cases s with ⟨hempty, he⟩ | ⟨hsp, a, -, he⟩ | ⟨-, he⟩
  · cases he.symm.trans h
    exact .inl ⟨.stackUnderflow, if_pos hempty, rfl⟩
  · cases he.symm.trans h
    exact .inr ⟨if_neg hsp.ne', (changes_pop s).trans (changes_setPc _ _), nofun⟩
  · cases he.symm.trans h

theorem execDrw_next {x y : Reg} {n : Nibble} (h : execDrw x y n s = .next t) :
    Faults (.drw x y n) s t ∨ Completes (.drw x y n) s t := by
  rcases execDrw_cases x y n s with ⟨hout, he⟩ | ⟨rows, hin, he⟩
  · cases he.symm.trans h
    exact .inl ⟨.memoryBounds, if_pos ((spriteRows_eq_none s _ _).1 hout), rfl⟩
  · cases he.symm.trans h
    exact .inr ⟨raises_drw_eq_none hin, (changes_setDisp s _).trans (changes_writeV _ _ _),
      fun _ => ⟨_, State.readV_writeV_same _ _ _⟩⟩

theorem execSkp_next {x : Reg} (h : execSkp x s = .next t) : Faults (.skp x) s t ∨ Completes (.skp x) s t := by
  rcases execSkp_cases x s with ⟨hge, he⟩ | ⟨hlt, he⟩
  · cases he.symm.trans h
    exact .inl ⟨.keyIndex, if_pos hge, rfl⟩
  · cases he.symm.trans h
    exact .inr ⟨if_neg (Nat.not_lt.2 (Nat.le_of_lt_succ hlt)), changes_setPc s _, nofun⟩

theorem execSknp_next {x : Reg} (h : execSknp x s = .next t) : Faults (.sknp x) s t ∨ Completes (.sknp x) s t := by
  rcases execSknp_cases x s with ⟨hge, he⟩ | ⟨hlt, he⟩
  · cases he.symm.trans h
    exact .inl ⟨.keyIndex, if_pos hge, rfl⟩
  · cases he.symm.trans h
    exact .inr ⟨if_neg (Nat.not_lt.2 (Nat.le_of_lt_succ hlt)), changes_setPc s _, nofun⟩

theorem skipIf_changes {c : Bool} (h : skipIf c s = .next t) : Changes [.pc] [] s t := by
  cases (skipIf_next c s).symm.trans h
  exact changes_setPc s _

/-- Everything a next state of `exec` can be: the fault entry of the table of R182, or a completed instruction that wrote
what `writtenParts` and `writtenRegs` list. -/
theorem exec_next (h : exec i s = .next t) : Faults i s t ∨ Completes i s t := by
  cases i with
  | call addr => exact execCall_next h
  | ret => exact execRet_next h
  | drw x y n => exact execDrw_next h
  | skp x => exact execSkp_next h
  | sknp x => exact execSknp_next h
  | sys => cases h; exact .inl ⟨.sysUnsupported, rfl, rfl⟩
  | fx0a | fx29 | fx33 | fx55 | fx65 => cases h; exact .inl ⟨.unimplemented, rfl, rfl⟩
  | halt => cases h; exact .inr ⟨rfl, changes_halt s, nofun⟩
  | cls => cases h; exact .inr ⟨rfl, changes_setDisp s _, nofun⟩
  | jp | jpV0 => cases h; exact .inr ⟨rfl, changes_setPc s _, nofun⟩
  | seImm | sneImm | seReg | sneReg => exact .inr ⟨rfl, skipIf_changes h, nofun⟩
  | ldI | addI => cases h; exact .inr ⟨rfl, changes_setI s _, nofun⟩
  | ldDtVx => cases h; exact .inr ⟨rfl, changes_setDt s _, nofun⟩
  | ldStVx => cases h; exact .inr ⟨rfl, changes_setSt s _, nofun⟩
  | ldImm | ldReg | orReg | andReg | xorReg | ldVxDt => cases h; exact .inr ⟨rfl, changes_writeV s _ _, nofun⟩
  | addImm | addReg | sub | shr | subn | shl => cases h; exact .inr (writeResultFlag_completes _ rfl rfl rfl)
  | rnd => cases h; exact .inr ⟨rfl, (changes_randomByte s).trans (changes_writeV _ _ _), nofun⟩

theorem exec_completes (h : exec i s = .next t) (h0 : raises i s = none) : Completes i s t := by
  rcases exec_next h with ⟨c, hc, -⟩ | hdone
  · cases h0.symm.trans hc
  · exact hdone

/-- A part that `i` does not write is kept, be it the mode or the fault record only where `i` raises no fault. -/
theorem exec_samePart {p : Part} (h : exec i s = .next t) (hp : p ∉ writtenParts i)
    (h0 : p ∈ [.mode, .faultRecord] → raises i s = none) : SamePart p s t := by
  rcases exec_next h with ⟨c, hc, rfl⟩ | hdone
  · exact (changes_raiseIn s c i).parts p fun hmem => nomatch (h0 hmem).symm.trans hc
  · exact hdone.changes.parts p hp

theorem exec_regsExcept (h : exec i s = .next t) : RegsExcept (writtenRegs i) s t := by
  rcases exec_next h with ⟨c, -, rfl⟩ | hdone
  · exact fun _ _ => rfl
  · exact hdone.changes.regs

theorem flagByte_zero_or_one (f : Bool) : flagByte f = 0#8 ∨ flagByte f = 1#8 := by
  cases f
  · exact .inl rfl
  · exact .inr rfl

/-- Settles O42: `VF` is written as a destination or as a flag, and what a completed flag writer leaves in it is a
flag byte. -/
theorem onlyFlagWritersChangeVF : Obligations.OnlyFlagWritersChangeVF := by
  refine fun i s t h => ⟨fun hf hd => exec_regsExcept h regVF ?_, fun hf h0 => ?_⟩
  · simp [mem_writtenRegs, hf, hd]
  · obtain ⟨f, hflag⟩ := (exec_completes h h0).flag hf
    rw [hflag]
    exact flagByte_zero_or_one f

/-! ### The writers of each part: the table of `writtenParts` read by its columns -/

theorem memory_notMem_writtenParts : Part.memory ∉ writtenParts i := by
  cases i <;> simp [writtenParts]

theorem keys_notMem_writtenParts : Part.keys ∉ writtenParts i := by
  cases i <;> simp [writtenParts]

theorem params_notMem_writtenParts : Part.params ∉ writtenParts i := by
  cases i <;> simp [writtenParts]

theorem faultRecord_notMem_writtenParts : Part.faultRecord ∉ writtenParts i := by
  cases i <;> simp [writtenParts]

theorem mode_mem_writtenParts : Part.mode ∈ writtenParts i ↔ i = .halt := by
  cases i <;> simp [writtenParts]

theorem display_mem_writtenParts : Part.display ∈ writtenParts i ↔ (∃ x y n, i = .drw x y n) ∨ i = .cls := by
  cases i <;> simp [writtenParts]

theorem stack_mem_writtenParts : Part.stack ∈ writtenParts i ↔ (∃ addr, i = .call addr) ∨ i = .ret := by
  cases i <;> simp [writtenParts]

theorem delay_mem_writtenParts : Part.delay ∈ writtenParts i ↔ ∃ x, i = .ldDtVx x := by
  cases i <;> simp [writtenParts]

theorem sound_mem_writtenParts : Part.sound ∈ writtenParts i ↔ ∃ x, i = .ldStVx x := by
  cases i <;> simp [writtenParts]

theorem index_mem_writtenParts : Part.index ∈ writtenParts i ↔ (∃ addr, i = .ldI addr) ∨ ∃ x, i = .addI x := by
  cases i <;> simp [writtenParts]

theorem draws_mem_writtenParts : Part.draws ∈ writtenParts i ↔ ∃ x kk, i = .rnd x kk := by
  cases i <;> simp [writtenParts]

/-- The ten instructions of the table of R24. -/
theorem pc_mem_writtenParts :
    Part.pc ∈ writtenParts i ↔
      (∃ addr, i = .jp addr) ∨ (∃ addr, i = .call addr) ∨ i = .ret ∨ (∃ addr, i = .jpV0 addr) ∨
      (∃ x kk, i = .seImm x kk) ∨ (∃ x kk, i = .sneImm x kk) ∨ (∃ x y, i = .seReg x y) ∨ (∃ x y, i = .sneReg x y) ∨
      (∃ x, i = .skp x) ∨ ∃ x, i = .sknp x := by
  cases i <;> simp [writtenParts]

/-- Settles O43: a part is kept unless the instruction lists it among the parts it writes or, for the mode and the fault
record, raises a fault; the registers likewise. -/
theorem eachPartHasItsWriters : Obligations.EachPartHasItsWriters := by
  intro i s t h
  refine ⟨?memory, ?keys, ?params, ?display, ?stack, ?delay, ?sound, ?index, ?draws, ?pc, ?mode, ?record, ?regs⟩
  case memory => exact exec_samePart h memory_notMem_writtenParts nofun
  case keys => exact exec_samePart h keys_notMem_writtenParts nofun
  case params => exact exec_samePart h params_notMem_writtenParts nofun
  case display =>
    intro hdrw hcls
    exact exec_samePart h (by simp [display_mem_writtenParts, hdrw, hcls]) nofun
  case stack =>
    intro hcall hret
    exact exec_samePart h (by simp [stack_mem_writtenParts, hcall, hret]) nofun
  case delay =>
    intro hdt
    exact exec_samePart h (by simp [delay_mem_writtenParts, hdt]) nofun
  case sound =>
    intro hst
    exact exec_samePart h (by simp [sound_mem_writtenParts, hst]) nofun
  case index =>
    intro hldI haddI
    exact exec_samePart h (by simp [index_mem_writtenParts, hldI, haddI]) nofun
  case draws =>
    intro hrnd
    exact exec_samePart h (by simp [draws_mem_writtenParts, hrnd]) nofun
  case pc =>
    intros
    exact exec_samePart h (by simp [pc_mem_writtenParts, *]) nofun
  case mode =>
    intro hhalt h0
    exact exec_samePart h (by simp [mode_mem_writtenParts, hhalt]) fun _ => h0
  case record =>
    intro h0
    exact exec_samePart h faultRecord_notMem_writtenParts fun _ => h0
  case regs =>
    intro r hd hf
    refine exec_regsExcept h r (mem_writtenRegs.not.2 ?_)
    rintro (hr | ⟨hw, rfl⟩)
    · exact hd hr
    · simp [hw] at hf

end Sys2Proof.Safety
end

section
/-! Which instructions answer the same whatever the keys and the sound timer hold (O44, O45). -/

namespace Sys2Proof.Safety

open Sys2Proof.Machine

/-- `s` with its keys and its sound timer changed by any two functions: what both two-run claims compare. -/
def mapKeysSound (g : Vector Bool 16 → Vector Bool 16) (f : Byte → Byte) (s : State) : State :=
  { s with keys := g s.keys, st := f s.st }

theorem setKey_eq_mapKeysSound (s : State) (k : Fin 16) (b : Bool) :
    s.setKey k b = mapKeysSound (fun v => v.set k.val b) id s := rfl

theorem setSt_eq_mapKeysSound (s : State) (b : Byte) : s.setSt b = mapKeysSound id (fun _ => b) s := rfl

section Commutes
/-! A meaning commutes with the change when it answers the same in the changed state, changed likewise. -/

variable (g : Vector Bool 16 → Vector Bool 16) (f : Byte → Byte) (s : State)

theorem skipIf_mapKeysSound (c : Bool) :
    skipIf c (mapKeysSound g f s) = mapNext (mapKeysSound g f) (skipIf c s) := by
  cases c <;> rfl

theorem randomByte_mapKeysSound :
    (mapKeysSound g f s).randomByte = (s.randomByte.1, mapKeysSound g f s.randomByte.2) := by
  cases hd : s.draws with
  | nil => rw [State.randomByte_free s hd]; exact State.randomByte_free _ hd
  | cons b rest => rw [State.randomByte_supplied s b rest hd]; exact State.randomByte_supplied _ b rest hd

theorem execRnd_mapKeysSound (x : Reg) (kk : Byte) :
    execRnd x kk (mapKeysSound g f s) = mapNext (mapKeysSound g f) (execRnd x kk s) := by
  unfold execRnd
  rw [randomByte_mapKeysSound]
  rfl

theorem execCall_mapKeysSound (addr : Addr12) :
    execCall addr (mapKeysSound g f s) = mapNext (mapKeysSound g f) (execCall addr s) := by
  unfold execCall
  rw [apply_ite (mapNext (mapKeysSound g f)), apply_ite (mapNext (mapKeysSound g f))]
  rfl

theorem execRet_mapKeysSound : execRet (mapKeysSound g f s) = mapNext (mapKeysSound g f) (execRet s) := by
  have htop : (mapKeysSound g f s).topSlot = s.topSlot := rfl
  unfold execRet
  rw [apply_ite (mapNext (mapKeysSound g f)), htop]
  cases s.topSlot <;> rfl

theorem execDrw_mapKeysSound (x y : Reg) (n : Nibble) :
    execDrw x y n (mapKeysSound g f s) = mapNext (mapKeysSound g f) (execDrw x y n s) := by
  have hrows : (mapKeysSound g f s).spriteRows (mapKeysSound g f s).i.toNat n.toNat = s.spriteRows s.i.toNat n.toNat :=
    rfl
  unfold execDrw
  rw [hrows]
  cases s.spriteRows s.i.toNat n.toNat <;> rfl

theorem execSkp_mapSound (x : Reg) :
    execSkp x (mapKeysSound id f s) = mapNext (mapKeysSound id f) (execSkp x s) := by
  have hv : (mapKeysSound id f s).readV x = s.readV x := rfl
  unfold execSkp
  rw [hv]
  cases keyOfByte (s.readV x) with
  | none => rfl
  | some k => exact skipIf_mapKeysSound id f s (s.keyRead k)

theorem execSknp_mapSound (x : Reg) :
    execSknp x (mapKeysSound id f s) = mapNext (mapKeysSound id f) (execSknp x s) := by
  have hv : (mapKeysSound id f s).readV x = s.readV x := rfl
  unfold execSknp
  rw [hv]
  cases keyOfByte (s.readV x) with
  | none => rfl
  | some k => exact skipIf_mapKeysSound id f s (!s.keyRead k)

/-- Every instruction commutes with a change of the keys and the sound timer, but that `SKP` and `SKNP` read a key and
`LD ST,Vx` overwrites the timer: these three where the part in question is left alone. -/
theorem exec_mapKeysSound (i : Instr) (hkeys : ((∃ x, i = .skp x) ∨ ∃ x, i = .sknp x) → g = id)
    (hsound : (∃ x, i = .ldStVx x) → f = id) :
    exec i (mapKeysSound g f s) = mapNext (mapKeysSound g f) (exec i s) := by
  cases i with
  | call addr => exact execCall_mapKeysSound g f s addr
  | ret => exact execRet_mapKeysSound g f s
  | drw x y n => exact execDrw_mapKeysSound g f s x y n
  | rnd x kk => exact execRnd_mapKeysSound g f s x kk
  | skp x => cases hkeys (.inl ⟨x, rfl⟩); exact execSkp_mapSound f s x
  | sknp x => cases hkeys (.inr ⟨x, rfl⟩); exact execSknp_mapSound f s x
  | seImm | sneImm | seReg | sneReg => exact skipIf_mapKeysSound g f s _
  | ldStVx x => cases hsound ⟨x, rfl⟩; rfl
  | halt | cls | jp | jpV0 | sys => rfl
  | ldImm | ldReg | orReg | andReg | xorReg | ldVxDt | addImm | addReg | sub | shr | subn | shl => rfl
  | ldI | addI | ldDtVx => rfl
  | fx0a | fx29 | fx33 | fx55 | fx65 => rfl

end Commutes

/-- Settles O44: a key is one of the keys, and the sound timer is left alone. -/
theorem keysAreReadByKeySkipsOnly : Obligations.KeysAreReadByKeySkipsOnly := by
  intro i s k b hskp hsknp
  simp only [setKey_eq_mapKeysSound]
  refine exec_mapKeysSound _ id s i ?_ fun _ => rfl
  rintro (⟨x, hx⟩ | ⟨x, hx⟩)
  · exact absurd hx (hskp x)
  · exact absurd hx (hsknp x)

/-- Settles O45: `LD ST,Vx` overwrites the value, every other instruction leaves it alone; the keys are not changed. -/
theorem soundTimerIsNeverRead : Obligations.SoundTimerIsNeverRead := by
  intro i s b
  split_ifs with hst
  · obtain ⟨x, rfl⟩ := hst
    rfl
  · simp only [setSt_eq_mapKeysSound]
    exact exec_mapKeysSound id _ s i (fun _ => rfl) fun h => absurd h hst

end Sys2Proof.Safety
end

section
/-! The fetch, byte by byte (O5). -/

namespace Sys2Proof.Safety

open Sys2Proof.Machine

/-- Settles O5: the word a fetch builds has the two bytes as its halves, and its halves determine a word. -/
theorem fetchIsBigEndian : Obligations.FetchIsBigEndian := by
  intro s w
  rw [State.fetch_eq_some]
  constructor
  · rintro ⟨hin, rfl⟩
    exact ⟨hin, wordOfBytes_toNat _ _, hiByte_wordOfBytes _ _, loByte_wordOfBytes _ _⟩
  · rintro ⟨hin, -, hhi, hlo⟩
    exact ⟨hin, by rw [← hhi, ← hlo, wordOfBytes_hi_lo]⟩

end Sys2Proof.Safety
end

section
/-! The decoder and the encoder are inverse to each other, and the words the decoder refuses (O1 to O4). -/

namespace Sys2Proof

/-! ### The selectors of R76 and R77, each said once -/

theorem wellFormed_sys {addr : Addr12} :
    (Instr.sys addr).wellFormed = true ↔ addr.toNat ≠ 0x000 ∧ addr.toNat ≠ 0x0E0 ∧ addr.toNat ≠ 0x0EE := by
  simp [Instr.wellFormed, ← BitVec.toNat_inj, and_assoc]

/-- The three fixed words come first, and a well-formed `SYS` is none of them (R76). -/
theorem decodeClass0_of_wellFormed {addr : Addr12} (hwf : (Instr.sys addr).wellFormed = true) :
    decodeClass0 addr = .sys addr := by
  obtain ⟨hhalt, hcls, hret⟩ := wellFormed_sys.mp hwf
  unfold decodeClass0
  split <;> trivial

theorem encode_decodeClass0 (addr : Addr12) :
    encode (decodeClass0 addr) = wordA 0x0#4 addr ∧ (decodeClass0 addr).wellFormed = true := by
  unfold decodeClass0
  split
  case h_4 hhalt hcls hret => exact ⟨rfl, wellFormed_sys.mpr ⟨hhalt, hcls, hret⟩⟩
  all_goals next haddr => exact ⟨congrArg (wordA _) (BitVec.eq_of_toNat_eq haddr.symm), rfl⟩

/-- In class 8 a row's `n` is the one that selects it (R77). -/
theorem encode_of_decodeClass8 {x y : Reg} {n : Nibble} {i : Instr} (h : decodeClass8 x y n = some i) :
    encode i = wordXYN 0x8#4 x y n ∧ i.wellFormed = true := by
  unfold decodeClass8 at h
  split at h <;> cases h
  all_goals next hn => exact ⟨congrArg (wordXYN _ x y) (BitVec.eq_of_toNat_eq hn.symm), rfl⟩

theorem decodeClass8_eq_none {x y : Reg} {n : Nibble} :
    decodeClass8 x y n = none ↔ n.toNat ∈ [0x8, 0x9, 0xA, 0xB, 0xC, 0xD, 0xF] := by
  have := n.isLt
  unfold decodeClass8
  split
  case h_10 => simp only [imp_false] at *; simp; omega
  all_goals next hn => simp [hn]

/-- In class F a row's `kk` is the one that selects it (R77). -/
theorem encode_of_decodeClassF {x : Reg} {kk : Byte} {i : Instr} (h : decodeClassF x kk = some i) :
    encode i = wordXK 0xF#4 x kk ∧ i.wellFormed = true := by
  unfold decodeClassF at h
  split at h <;> cases h
  all_goals next hkk => exact ⟨congrArg (wordXK _ x) (BitVec.eq_of_toNat_eq hkk.symm), rfl⟩

theorem decodeClassF_eq_none {x : Reg} {kk : Byte} :
    decodeClassF x kk = none ↔ kk.toNat ∉ [0x07, 0x0A, 0x15, 0x18, 0x1E, 0x29, 0x33, 0x55, 0x65] := by
  unfold decodeClassF
  split
  case h_10 => simp only [imp_false] at *; simp [*]
  all_goals next hkk => simp [hkk]

/-! ### A word of a known class is laid out from its fields by each format of R74 -/

section Layout

variable {c : Nibble} {w : Word} (hc : (fieldC w).toNat = c.toNat)
include hc

theorem wordA_of_class : wordA c (fieldAddr w) = w := by
  apply BitVec.eq_of_toNat_eq; rw [wordA_toNat, ← hc, fieldC_toNat, fieldAddr_toNat]; omega

theorem wordXK_of_class : wordXK c (regOfNibble (fieldX w)) (fieldKK w) = w := by
  apply BitVec.eq_of_toNat_eq; rw [wordXK_toNat, ← hc, fieldC_toNat, fieldX_val, fieldKK_toNat]; omega

theorem wordXYN_of_class : wordXYN c (regOfNibble (fieldX w)) (regOfNibble (fieldY w)) (fieldN w) = w := by
  apply BitVec.eq_of_toNat_eq; rw [wordXYN_toNat, ← hc, fieldC_toNat, fieldX_val, fieldY_val, fieldN_toNat]; omega

end Layout

/-! ### The obligations -/

/-- By the format of the instruction's word and the selector of its class. -/
theorem decodeWord_encode (i : Instr) (hwf : i.wellFormed = true) : decodeWord (encode i) = some i := by
  cases i with
  | halt | cls | ret => decide
  | sys addr => simp [encode, decodeWord, decodeClass0_of_wellFormed hwf]
  | jp | call | ldI | jpV0 => simp [encode, decodeWord]
  | seImm | sneImm | ldImm | addImm | rnd | skp | sknp => simp [encode, decodeWord]
  | seReg | sneReg | drw => simp [encode, decodeWord]
  | ldReg | orReg | andReg | xorReg | addReg | sub | shr | subn | shl => simp [encode, decodeWord, decodeClass8]
  | ldVxDt | ldDtVx | ldStVx | addI | fx0a | fx29 | fx33 | fx55 | fx65 => simp [encode, decodeWord, decodeClassF]

theorem decodeBytes_of_decodeWord {w : Word} {i : Instr} (h : decodeWord w = some i) (rest : List Byte) :
    decodeBytes (hiByte w :: loByte w :: rest) = .instr i rest := by
  simp [decodeBytes, h]

/-- Settles O1: the word's fields are the operands, and its two bytes make the word again. -/
theorem decodeOfEncodeIsTheInstruction : Obligations.DecodeOfEncodeIsTheInstruction := fun i hwf =>
  have hdec := decodeWord_encode i hwf
  ⟨hdec, decodeBytes_of_decodeWord hdec⟩

/-- Settles O2: in each class the row's word is laid out from the fields of the word that selected the row. -/
theorem encodeOfDecodeIsTheWord : Obligations.EncodeOfDecodeIsTheWord := by
  intro w i h
  -- Case `h_k` is class `k - 1`.
  dsimp only [decodeWord] at h
  split at h
  case h_1 hc => cases h; exact (encode_decodeClass0 _).imp_left (·.trans (wordA_of_class hc))
  case h_2 hc | h_3 hc | h_11 hc | h_12 hc => cases h; exact ⟨wordA_of_class hc, rfl⟩
  case h_4 hc | h_5 hc | h_7 hc | h_8 hc | h_13 hc => cases h; exact ⟨wordXK_of_class hc, rfl⟩
  case h_14 hc => cases h; exact ⟨wordXYN_of_class hc, rfl⟩
  case h_6 hc | h_10 hc =>
    split at h <;> cases h
    next hn => exact ⟨by rw [encode, ← hn, wordXYN_of_class hc], rfl⟩
  case h_9 hc => exact (encode_of_decodeClass8 h).imp_left (·.trans (wordXYN_of_class hc))
  case h_15 hc =>
    split_ifs at h with hkk hkk <;> cases h
    all_goals exact ⟨by rw [encode, ← hkk, wordXK_of_class hc], rfl⟩
  case h_16 =>
    have hc : (fieldC w).toNat = 15 := by simp only [imp_false] at *; have := (fieldC w).isLt; omega
    exact (encode_of_decodeClassF h).imp_left (·.trans (wordXK_of_class hc))

/-- Settles O3: only classes 5, 8, 9, E and F look at a selector, and each refuses the values the table lists. -/
theorem illegalWordsAreThoseOfTheTable : Obligations.IllegalWordsAreThoseOfTheTable := by
  intro w
  simp only [← fieldC_toNat, ← fieldN_toNat, ← fieldKK_toNat]
  -- Case `h_k` is class `k - 1`.
  dsimp only [decodeWord]
  split
  case h_6 hc | h_10 hc => simp [hc, ← BitVec.toNat_inj]
  case h_9 hc => simp [hc, decodeClass8_eq_none]
  case h_15 hc =>
    simp only [← BitVec.toNat_inj, BitVec.toNat_ofNat]
    split_ifs with hskp hsknp
    · simp [hc, hskp]
    · simp [hc, hsknp]
    · simp [hc, hskp, hsknp]
  case h_16 =>
    have hc : (fieldC w).toNat = 15 := by simp only [imp_false] at *; have := (fieldC w).isLt; omega
    simp [hc, decodeClassF_eq_none]
  all_goals next hc => simp [hc]

/-- Settles O4: the decoder computes each word's row. -/
theorem wordsOfTheSpecDecode : Obligations.WordsOfTheSpecDecode := by
  unfold Obligations.WordsOfTheSpecDecode
  decide

end Sys2Proof
end

section
/-! `HALT`, `JP`, `CALL` and `RET`, in `exec` and in a step (O11, O12, O13, O15, O46). -/

namespace Sys2Proof.Safety

open Sys2Proof.Machine

variable {s t : State}

/-! ### Words and frames -/

/-- A well-formed instruction's word stands for it, however the word is written. -/
theorem encodesAs_of_encode {i : Instr} {w : Word} (hwf : i.wellFormed = true) (hw : encode i = w) : EncodesAs i w :=
  ⟨hw ▸ decodeWord_encode i hwf, hw⟩

theorem encodesAs_halt : EncodesAs .halt 0x0000#16 := encodesAs_of_encode rfl rfl

theorem encodesAs_jp (addr : Addr12) : EncodesAs (.jp addr) (BitVec.ofNat 16 (0x1000 + addr.toNat)) :=
  encodesAs_of_encode rfl rfl

theorem encodesAs_call (addr : Addr12) : EncodesAs (.call addr) (BitVec.ofNat 16 (0x2000 + addr.toNat)) :=
  encodesAs_of_encode rfl rfl

theorem decodeWord_eq_halt {w : Word} : decodeWord w = some .halt ↔ w = 0x0000#16 := by
  constructor
  · intro hdec
    exact (encodeOfDecodeIsTheWord w .halt hdec).1.symm.trans encodesAs_halt.2
  · rintro rfl
    exact encodesAs_halt.1

theorem SameExcept.mono {ps ps' : List Part} (h : SameExcept ps s t) (hsub : ps ⊆ ps') : SameExcept ps' s t :=
  fun p hp => h p (mt (@hsub p) hp)

theorem changes_raise (s : State) (c : FaultCause) (word addr : Word) :
    Changes [.mode, .faultRecord] [] s (s.raise c word addr) := .of_parts

theorem faultEntered_raise (s : State) (c : FaultCause) (word addr : Word) :
    FaultEntered c.code word addr s (s.raise c word addr) :=
  ⟨rfl, rfl, rfl, rfl, (changes_raise s c word addr).parts⟩

/-! ### What a step answers, by what it finds (R220) -/

theorem fetches_iff {w : Word} : Fetches s w ↔ s.fetch = some w := (State.fetch_eq_some s w).symm

theorem step_of_halted (hm : s.mode = .halted) : step s = .fault .stuckHalted := by
  simp only [step, hm]

theorem step_of_fetch_none (hm : s.mode = .running) (hf : s.fetch = none) :
    step s = .next (s.raise .memoryBounds 0#16 s.pc) := by
  simp only [step, hm, hf]

theorem step_of_decode {w : Word} {i : Instr} (hm : s.mode = .running) (hf : Fetches s w) (hd : decodeWord w = some i) :
    step s = exec i s.advance := by
  simp only [step, hm, fetches_iff.1 hf, hd]

/-! ### `HALT` -/

/-- Settles O11: the step runs `HALT` after the fetch increment. -/
theorem haltEndsTheRun : Obligations.HaltEndsTheRun := by
  refine ⟨encodesAs_halt, fun s => ⟨s.halt, rfl, rfl, (changes_halt s).parts⟩, fun s hm hf => ?_⟩
  have hframe : SameExcept [.mode, .pc] s s.advance.halt :=
    ((changes_setPc s _).trans (changes_halt s.advance)).parts.mono (by decide)
  exact ⟨s.advance.halt, step_of_decode hm hf encodesAs_halt.1, rfl, rfl, hframe, step_of_halted rfl⟩

/-- A fault entry leaves the machine Faulted, and `HALT` alone writes the mode otherwise. -/
theorem exec_mode_halted_iff {i : Instr} (hm : s.mode = .running) (h : exec i s = .next t) :
    t.mode = .halted ↔ i = .halt := by
  constructor
  · intro ht
    by_contra hi
    rcases exec_next h with ⟨c, -, rfl⟩ | hdone
    · cases ht
    · have hmode : t.mode = s.mode := hdone.changes.parts .mode (mt mode_mem_writtenParts.1 hi)
      cases hm.symm.trans (hmode.symm.trans ht)
  · rintro rfl
    cases h
    rfl

/-- Settles O46: a fetch outside memory and an undecodable word fault, and `0000` is the word of `HALT` alone. -/
theorem onlyTheZeroWordHalts : Obligations.OnlyTheZeroWordHalts := by
  intro s t hm hs
  rw [fetches_iff]
  rcases step_cases s with ⟨hm', -⟩ | ⟨hm', -⟩ | ⟨-, hf, he⟩ | ⟨-, w, hf, hd, he⟩ | ⟨-, w, i, hf, hd, he⟩
  · cases hm.symm.trans hm'
  · cases hm.symm.trans hm'
  · cases he.symm.trans hs
    exact iff_of_false nofun (by simp [hf])
  · cases he.symm.trans hs
    refine iff_of_false nofun fun h0 => ?_
    cases hf.symm.trans h0
    cases hd.symm.trans encodesAs_halt.1
  · calc t.mode = .halted
      _ ↔ i = .halt := exec_mode_halted_iff (s := s.advance) hm (he.symm.trans hs)
      _ ↔ decodeWord w = some .halt := by rw [hd, Option.some_inj]
      _ ↔ w = 0x0000#16 := decodeWord_eq_halt
      _ ↔ s.fetch = some 0x0000#16 := by rw [hf, Option.some_inj]

/-! ### `JP` -/

/-- Settles O12: the step after the jump fetches at the target. -/
theorem jumpLoadsTheAddress : Obligations.JumpLoadsTheAddress := by
  refine fun addr => ⟨encodesAs_jp addr, fun s => ?_⟩
  refine ⟨s.setPc (zextAddr addr), rfl, zextAddr_toNat addr, (changes_setPc s _).parts, fun hm hout => ?_⟩
  have hf : (s.setPc (zextAddr addr)).fetch = none := by
    rw [State.fetch_eq_none, State.setPc_pc, zextAddr_toNat]
    exact hout
  exact ⟨_, step_of_fetch_none hm hf, faultEntered_raise _ .memoryBounds _ _⟩

/-! ### `CALL` and `RET` -/

theorem execCall_of_free (addr : Addr12) (hsp : s.sp < s.stackDepth) :
    execCall addr s = .next ((s.push s.pc).setPc (zextAddr addr)) := by
  rcases execCall_cases addr s with ⟨hfull, -⟩ | ⟨-, he⟩ | ⟨hout, -⟩
  · exact absurd hfull hsp.ne
  · exact he
  · exact absurd hout hsp.asymm

theorem execCall_of_full (addr : Addr12) (hsp : s.sp = s.stackDepth) :
    execCall addr s = .next (s.raiseIn .stackOverflow (.call addr)) :=
  if_pos hsp

theorem execRet_of_topSlot {a : Word} (h0 : 0 < s.sp) (ha : s.topSlot = some a) :
    execRet s = .next (s.pop.setPc a) := by
  unfold execRet
  rw [if_neg h0.ne', ha]

theorem push_slot (hsp : s.sp < s.stackDepth) (a : Word) : (s.push a).stack[s.sp]? = some a :=
  List.getElem?_set_self hsp

theorem push_other_slot {k : Nat} (hk : k ≠ s.sp) (a : Word) : (s.push a).stack[k]? = s.stack[k]? :=
  List.getElem?_set_ne hk.symm

/-- Settles O13: the frames of the push and of the jump on a free slot, the fault entry on a full stack. -/
theorem callPushesTheReturnAddress : Obligations.CallPushesTheReturnAddress := by
  refine fun addr => ⟨encodesAs_call addr, fun s hsp => ?_, fun s hsp => ?_⟩
  · have hframe : SameExcept [.pc, .stack] s ((s.push s.pc).setPc (zextAddr addr)) :=
      ((changes_push s _).trans (changes_setPc _ _)).parts.mono (by decide)
    exact ⟨_, execCall_of_free addr hsp, push_slot hsp s.pc, fun _ hk => push_other_slot hk s.pc,
      State.push_stackDepth s s.pc, rfl, zextAddr_toNat addr, hframe⟩
  · exact ⟨_, execCall_of_full addr hsp, faultEntered_raise s .stackOverflow _ _⟩

/-- Settles O15: the slot below the raised `SP` is the one the call wrote. -/
theorem callThenReturnRestores : Obligations.CallThenReturnRestores := by
  intro addr s hsp
  refine ⟨_, execCall_of_free addr hsp, fun t' hsp' hstack' => ?_⟩
  have hsp1 : t'.sp = s.sp + 1 := hsp'
  have htop : t'.topSlot = some s.pc := by
    rw [State.topSlot, hsp1, hstack']
    exact push_slot hsp s.pc
  have hpop : t'.pop.sp = s.sp := by
    rw [State.pop_sp, hsp1, Nat.add_sub_cancel]
  have hframe : SameExcept [.pc, .stack] t' (t'.pop.setPc s.pc) :=
    ((changes_pop t').trans (changes_setPc _ _)).parts.mono (by decide)
  exact ⟨_, execRet_of_topSlot (by omega) htop, rfl, hpop, hframe⟩

end Sys2Proof.Safety
end

section
/-! The four compare-and-skip instructions (O18). -/

namespace Sys2Proof.Safety

open Sys2Proof.Machine

/-- The register forms fix the field `n`: classes 5 and 9 refuse every other value of it (R79). -/
theorem decodeWord_compareClass_eq_none {c n : Nibble} (hc : c = 0x5#4 ∨ c = 0x9#4) (hn : n ≠ 0#4) (x y : Reg) :
    decodeWord (wordXYN c x y n) = none := by
  rcases hc with rfl | rfl
  · simp [decodeWord, hn]
  · simp [decodeWord, hn]

/-- A conditional skip read by the proposition its test decides (R110). -/
theorem skipIf_movesPc {c : Bool} {p : Prop} [Decidable p] (hc : c = true ↔ p) (s : State) :
    ∃ t, skipIf c s = .next t ∧ SameExcept [.pc] s t ∧ t.pc = if p then s.pc + 2#16 else s.pc :=
  ⟨_, skipIf_next c s, (changes_setPc s _).parts, if_congr hc rfl rfl⟩

/-- Settles O18: each of the four is a conditional skip on its comparison. -/
theorem compareSkipsMovePc : Obligations.CompareSkipsMovePc := by
  intro x y kk
  refine ⟨encodesAs_of_encode rfl rfl, encodesAs_of_encode rfl rfl, encodesAs_of_encode rfl rfl,
    encodesAs_of_encode rfl rfl, fun n hn => ?refused, fun s => ?skips⟩
  case refused =>
    exact ⟨decodeWord_compareClass_eq_none (.inl rfl) hn x y, decodeWord_compareClass_eq_none (.inr rfl) hn x y⟩
  case skips =>
    exact ⟨skipIf_movesPc beq_iff_eq s, skipIf_movesPc bne_iff_ne s, skipIf_movesPc beq_iff_eq s,
      skipIf_movesPc bne_iff_ne s⟩

end Sys2Proof.Safety
end

section
/-! The register loads, the logical operations and the ALU's flag writers (O19, O20, O21, O22, O23, O25). -/

namespace Sys2Proof.Safety

open Sys2Proof.Machine

variable {s t u : State} {i : Instr} {x : Reg}

/-! ### The words of class 8 -/

/-- The form `base + x * 256 + y * 16` of a word of class 8: `base` holds the class and the selector `n` (R77). -/
theorem encodesAs_class8 {y : Reg} {n : Nibble} {base : Nat} (hwf : i.wellFormed = true)
    (hi : encode i = wordXYN 0x8#4 x y n) (hbase : base = 0x8000 + n.toNat) :
    EncodesAs i (BitVec.ofNat 16 (base + x.val * 256 + y.val * 16)) := by
  have hsum : 0x8000 + x.val * 256 + y.val * 16 + n.toNat = base + x.val * 256 + y.val * 16 := by omega
  exact encodesAs_of_encode hwf (hi.trans (congrArg (BitVec.ofNat 16) hsum))

/-! ### Plain register writes -/

theorem exec_writeV {b : Byte} (he : exec i s = .next (s.writeV x b)) :
    ∃ t, exec i s = .next t ∧ t.readV x = b ∧ RegsExcept [x] s t ∧ SameExcept [.regs] s t :=
  ⟨_, he, State.readV_writeV_same s x b, (changes_writeV s x b).regs, (changes_writeV s x b).parts⟩

theorem exec_writeV_bits {b : Byte} {f : Nat → Bool} (he : exec i s = .next (s.writeV x b))
    (hbits : ∀ k, b.getLsbD k = f k) :
    ∃ t, exec i s = .next t ∧ RegsExcept [x] s t ∧ SameExcept [.regs] s t ∧ ∀ k, (t.readV x).getLsbD k = f k := by
  obtain ⟨t, ht, hx, hregs, hparts⟩ := exec_writeV he
  exact ⟨t, ht, hregs, hparts, fun k => hx ▸ hbits k⟩

/-- Settles O19: each load is one register write. -/
theorem loadsWriteOneRegister : Obligations.LoadsWriteOneRegister := by
  intro x y kk
  exact ⟨encodesAs_of_encode rfl rfl, encodesAs_class8 rfl rfl rfl, fun s => ⟨exec_writeV rfl, exec_writeV rfl⟩⟩

/-- Settles O20: each operation is one register write, of a byte known bit by bit. -/
theorem logicalOperationsAreBitwise : Obligations.LogicalOperationsAreBitwise := by
  intro x y
  refine ⟨encodesAs_class8 rfl rfl rfl, encodesAs_class8 rfl rfl rfl, encodesAs_class8 rfl rfl rfl,
    fun s => ⟨?or, ?and, ?xor⟩⟩
  case or => exact exec_writeV_bits rfl fun k => BitVec.getLsbD_or
  case and => exact exec_writeV_bits rfl fun k => BitVec.getLsbD_and
  case xor => exact exec_writeV_bits rfl fun k => BitVec.getLsbD_xor

/-! ### The 8-bit primitives as arithmetic (R128, R130, R132) -/

theorem flagByte_toNat (f : Bool) : (flagByte f).toNat = f.toNat := by cases f <;> rfl

theorem flagByte_decide_toNat (p : Prop) [Decidable p] : (flagByte (decide p)).toNat = if p then 1 else 0 :=
  (flagByte_toNat _).trans (apply_ite Bool.toNat p true false)

theorem overflowingSub8_fst (a b : Byte) :
    ((overflowingSub8 a b).1.toNat : Int) = (a.toNat - b.toNat : Int) % 256 := by
  have hsub : (overflowingSub8 a b).1.toNat = (256 - b.toNat + a.toNat) % 256 := BitVec.toNat_sub a b
  omega

theorem shiftRight1_fst_toNat (a : Byte) : (shiftRight1 a).1.toNat = a.toNat / 2 := by
  simp [shiftRight1, Nat.shiftRight_eq_div_pow]

theorem shiftRight1_flag_toNat (a : Byte) : (flagByte (shiftRight1 a).2).toNat = a.toNat % 2 := by
  rw [shiftRight1, flagByte_toNat, BitVec.getLsbD, Nat.toNat_testBit, Nat.pow_zero, Nat.div_one]

theorem shiftLeft1_fst_toNat (a : Byte) : (shiftLeft1 a).1.toNat = 2 * a.toNat % 256 := by
  simp [shiftLeft1, Nat.shiftLeft_eq, Nat.mul_comm]

theorem shiftLeft1_flag_toNat (a : Byte) : (flagByte (shiftLeft1 a).2).toNat = a.toNat / 128 := by
  rw [shiftLeft1, flagByte_toNat, BitVec.getLsbD, Nat.toNat_testBit]
  omega

/-! ### The flag writers, for a destination other than `VF` -/

/-- The destination keeps the result, since the flag that is written last (R131) goes to another register. -/
theorem exec_writeResultFlag {r : Byte × Bool} (hx : x ≠ regVF) (he : exec i s = .next (s.writeResultFlag x r)) :
    ∃ t, exec i s = .next t ∧ RegsExcept [x, regVF] s t ∧ SameExcept [.regs] s t ∧ t.readV x = r.1 ∧
      t.readV regVF = flagByte r.2 := by
  have hframe := changes_writeResultFlag s x r
  refine ⟨_, he, hframe.regs, hframe.parts, ?result, ?flag⟩
  case result => rw [State.readV_writeResultFlag, if_neg hx, if_pos rfl]
  case flag => rw [State.readV_writeResultFlag, if_pos rfl]

theorem exec_overflowingAdd8 {a b : Byte} (hx : x ≠ regVF)
    (he : exec i s = .next (s.writeResultFlag x (overflowingAdd8 a b))) :
    ∃ t, exec i s = .next t ∧ RegsExcept [x, regVF] s t ∧ SameExcept [.regs] s t ∧
      (t.readV x).toNat = (a.toNat + b.toNat) % 256 ∧
      (t.readV regVF).toNat = if a.toNat + b.toNat > 255 then 1 else 0 := by
  obtain ⟨t, ht, hregs, hparts, hres, hflag⟩ := exec_writeResultFlag hx he
  exact ⟨t, ht, hregs, hparts, hres ▸ BitVec.toNat_add a b, hflag ▸ flagByte_decide_toNat _⟩

theorem exec_overflowingSub8 {a b : Byte} (hx : x ≠ regVF)
    (he : exec i s = .next (s.writeResultFlag x (overflowingSub8 a b))) :
    ∃ t, exec i s = .next t ∧ RegsExcept [x, regVF] s t ∧ SameExcept [.regs] s t ∧
      ((t.readV x).toNat : Int) = (a.toNat - b.toNat : Int) % 256 ∧
      (t.readV regVF).toNat = if a.toNat ≥ b.toNat then 1 else 0 := by
  obtain ⟨t, ht, hregs, hparts, hres, hflag⟩ := exec_writeResultFlag hx he
  exact ⟨t, ht, hregs, hparts, hres ▸ overflowingSub8_fst a b, hflag ▸ flagByte_decide_toNat _⟩

theorem exec_shr (hx : x ≠ regVF) (y : Reg) (s : State) :
    ∃ t, exec (.shr x y) s = .next t ∧ RegsExcept [x, regVF] s t ∧ SameExcept [.regs] s t ∧
      (t.readV x).toNat = (s.readV x).toNat / 2 ∧ (t.readV regVF).toNat = (s.readV x).toNat % 2 := by
  obtain ⟨t, ht, hregs, hparts, hres, hflag⟩ := exec_writeResultFlag (i := .shr x y) (s := s) hx rfl
  exact ⟨t, ht, hregs, hparts, hres ▸ shiftRight1_fst_toNat _, hflag ▸ shiftRight1_flag_toNat _⟩

theorem exec_shl (hx : x ≠ regVF) (y : Reg) (s : State) :
    ∃ t, exec (.shl x y) s = .next t ∧ RegsExcept [x, regVF] s t ∧ SameExcept [.regs] s t ∧
      (t.readV x).toNat = 2 * (s.readV x).toNat % 256 ∧ (t.readV regVF).toNat = (s.readV x).toNat / 128 := by
  obtain ⟨t, ht, hregs, hparts, hres, hflag⟩ := exec_writeResultFlag (i := .shl x y) (s := s) hx rfl
  exact ⟨t, ht, hregs, hparts, hres ▸ shiftLeft1_fst_toNat _, hflag ▸ shiftLeft1_flag_toNat _⟩

/-- Settles O21: both write what `overflowing_add8` gives for the old operands. -/
theorem addsSetTheCarry : Obligations.AddsSetTheCarry := by
  intro x y kk hx
  exact ⟨encodesAs_of_encode rfl rfl, encodesAs_class8 rfl rfl rfl,
    fun s => ⟨exec_overflowingAdd8 hx rfl, exec_overflowingAdd8 hx rfl⟩⟩

/-- Settles O22: both write what `overflowing_sub8` gives, for the old operands in the one order and in the other. -/
theorem subtractionsSetNoBorrow : Obligations.SubtractionsSetNoBorrow := by
  intro x y hx
  exact ⟨encodesAs_class8 rfl rfl rfl, encodesAs_class8 rfl rfl rfl,
    fun s => ⟨exec_overflowingSub8 hx rfl, exec_overflowingSub8 hx rfl⟩⟩

/-- Settles O23: the specifications of the two shifts, side by side. -/
theorem shiftsKeepTheBitShiftedOut : Obligations.ShiftsKeepTheBitShiftedOut := by
  intro x y hx
  exact ⟨encodesAs_class8 rfl rfl rfl, encodesAs_class8 rfl rfl rfl, fun s => ⟨exec_shr hx y s, exec_shl hx y s⟩⟩

/-! ### One shift after the other -/

theorem RegsExcept.trans {rs : List Reg} (h : RegsExcept rs s t) (h' : RegsExcept rs t u) : RegsExcept rs s u :=
  fun r hr => (h' r hr).trans (h r hr)

theorem SameExcept.trans {ps : List Part} (h : SameExcept ps s t) (h' : SameExcept ps t u) : SameExcept ps s u :=
  fun p hp => (h p hp).trans (h' p hp)

/-- Settles O25: the second shift runs on the byte the first one left, which lacks the bit shifted out, and the rest is
arithmetic on a byte. -/
theorem shiftRoundTrips : Obligations.ShiftRoundTrips := by
  intro x y y' s hx
  have hbyte := (s.readV x).isLt
  constructor
  · obtain ⟨t, ht, htregs, htparts, htres, htflag⟩ := exec_shl hx y s
    obtain ⟨u, hu, huregs, huparts, hures, huflag⟩ := exec_shr hx y' t
    exact ⟨t, u, ht, hu, by omega, htflag, by omega, htregs.trans huregs, htparts.trans huparts⟩
  · obtain ⟨t, ht, htregs, htparts, htres, htflag⟩ := exec_shr hx y s
    obtain ⟨u, hu, huregs, huparts, hures, huflag⟩ := exec_shl hx y' t
    exact ⟨t, u, ht, hu, by omega, htflag, by omega, htregs.trans huregs, htparts.trans huparts⟩

end Sys2Proof.Safety
end

section
/-! The load of the index register (O26). -/

namespace Sys2Proof.Safety

open Sys2Proof.Machine

theorem encodesAs_ldI (addr : Addr12) : EncodesAs (.ldI addr) (BitVec.ofNat 16 (0xA000 + addr.toNat)) :=
  encodesAs_of_encode rfl rfl

/-- One write of `I`, in any state: there is no guard on `MEM_SIZE` (R140). -/
theorem exec_ldI (addr : Addr12) (s : State) : exec (.ldI addr) s = .next (s.setI (zextAddr addr)) := rfl

/-- Settles O26: the load is one write of `I`, and widening the address keeps its value. -/
theorem loadIndexZeroExtends : Obligations.LoadIndexZeroExtends := by
  refine fun addr => ⟨encodesAs_ldI addr, fun s => ?_⟩
  exact ⟨s.setI (zextAddr addr), exec_ldI addr s, zextAddr_toNat addr, (changes_setI s _).parts⟩

end Sys2Proof.Safety
end

section
/-! `CLS` and `DRW`: the blit as one formula for each cell, and the collision flag (O29, O30, O31, O32). -/

namespace Sys2Proof.Safety

open Sys2Proof.Machine
open Sys2Proof.Config (CollisionRule)

/-! ### `CLS` -/

/-- Settles O29: the instruction replaces the display by the blank one. -/
theorem clearScreenTurnsEveryCellOff : Obligations.ClearScreenTurnsEveryCellOff :=
  ⟨encodesAs_of_encode rfl rfl,
    fun s => ⟨s.setDisp Display.blank, rfl, Display.read_blank, (changes_setDisp s _).parts⟩⟩

/-! ### The blit of a region -/

/-- `b` is `a` after the blit of the cells of `region`, each once and under its own bit (R152): so the flag depends on
the display as it was before any of them was drawn. -/
structure Blits (rule : CollisionRule) (bit : Fin 64 → Fin 32 → Bool) (region : Fin 64 → Fin 32 → Prop)
    (a b : Display × Bool) : Prop where
  flips : ∀ px py, region px py → Display.read b.1 px py = (Display.read a.1 px py ^^ bit px py)
  keeps : ∀ px py, ¬ region px py → Display.read b.1 px py = Display.read a.1 px py
  flag : b.2 = true ↔ a.2 = true ∨ ∃ px py, region px py ∧ collides rule (bit px py) (Display.read a.1 px py) = true

section Regions

variable {rule : CollisionRule} {bit : Fin 64 → Fin 32 → Bool} {region region' both : Fin 64 → Fin 32 → Prop}
  {a b c : Display × Bool}

theorem Blits.of_empty (hempty : ∀ px py, ¬ region px py) : Blits rule bit region a a where
  flips px py h := absurd h (hempty px py)
  keeps _ _ _ := rfl
  flag := by simp [hempty]

theorem blits_blitCell (px : Fin 64) (py : Fin 32) :
    Blits rule bit (fun qx qy => qx = px ∧ qy = py) a (blitCell rule px py (bit px py) a) where
  flips qx qy h := by
    obtain ⟨rfl, rfl⟩ := h
    simp [blitCell_read]
  keeps qx qy h := by simp [blitCell_read, h]
  flag := by simp [blitCell_flag]

/-- The second blit finds every cell of its region as it was before the first one. -/
theorem Blits.union (h : Blits rule bit region a b) (h' : Blits rule bit region' b c)
    (hdisjoint : ∀ px py, region' px py → ¬ region px py)
    (hboth : ∀ px py, both px py ↔ region px py ∨ region' px py) : Blits rule bit both a c where
  flips px py hin := by
    rcases (hboth px py).1 hin with hfirst | hsecond
    · rw [h'.keeps px py fun hsecond => hdisjoint px py hsecond hfirst, h.flips px py hfirst]
    · rw [h'.flips px py hsecond, h.keeps px py (hdisjoint px py hsecond)]
  keeps px py hout := by
    rw [hboth, not_or] at hout
    rw [h'.keeps px py hout.2, h.keeps px py hout.1]
  flag := by
    have hunchanged : ∀ px py, region' px py ∧ collides rule (bit px py) (Display.read b.1 px py) = true ↔
        region' px py ∧ collides rule (bit px py) (Display.read a.1 px py) = true := fun px py =>
      and_congr_right fun hsecond => by rw [h.keeps px py (hdisjoint px py hsecond)]
    simp only [h'.flag, h.flag, hunchanged, hboth, or_and_right, exists_or, or_assoc]

/-- A second blit of the same region flips back what the first one flipped. -/
theorem Blits.again_read {d e d' : Display} {f f' g g' : Bool} (h : Blits rule bit region (d, f) (e, f'))
    (h' : Blits rule bit region (e, g) (d', g')) (px : Fin 64) (py : Fin 32) :
    Display.read d' px py = Display.read d px py := by
  by_cases hin : region px py
  · rw [h'.flips px py hin, h.flips px py hin, Bool.xor_assoc, Bool.xor_self, Bool.xor_false]
  · rw [h'.keeps px py hin, h.keeps px py hin]

/-- What a second blit of the same region tests: each cell as it was before the first one, flipped under a 1 bit. -/
theorem Blits.again_collides (h : Blits rule bit region a b) :
    (∃ px py, region px py ∧ collides rule (bit px py) (Display.read b.1 px py) = true) ↔
      ∃ px py, region px py ∧ collides rule (bit px py) (Display.read a.1 px py ^^ bit px py) = true :=
  exists_congr fun px => exists_congr fun py => and_congr_right fun hin => by rw [h.flips px py hin]

end Regions

/-! ### The torus (R152): which sprite column and row land on a cell -/

theorem columnAt_eq_iff {xStart k : Nat} {px : Fin 64} (hk : k < 64) :
    columnAt xStart px = k ↔ px = spriteColumn xStart k := by
  have hpx := px.isLt
  simp only [columnAt, spriteColumn, Fin.ext_iff, Fin.val_ofNat]
  omega

theorem rowAt_eq_iff {yStart r : Nat} {py : Fin 32} (hr : r < 32) :
    rowAt yStart py = r ↔ py = spriteLine yStart r := by
  have hpy := py.isLt
  simp only [rowAt, spriteLine, Fin.ext_iff, Fin.val_ofNat]
  omega

/-! ### The loops of the blit -/

section Loops

variable (rule : CollisionRule) (xStart yStart : Nat) (byteAt : Nat → Byte)

/-- The sprite bit over a cell (R152), where row `r` of the sprite is the byte `byteAt r`. -/
def bitOver (px : Fin 64) (py : Fin 32) : Bool := spriteBit (byteAt (rowAt yStart py)) (columnAt xStart px)

theorem bitOver_spriteCell {r k : Nat} (hr : r < 32) (hk : k < 64) :
    bitOver xStart yStart byteAt (spriteColumn xStart k) (spriteLine yStart r) = spriteBit (byteAt r) k := by
  rw [bitOver, (rowAt_eq_iff hr).2 rfl, (columnAt_eq_iff hk).2 rfl]

/-- By induction on the number `m` of columns done: one more is a cell not visited before. -/
theorem blits_columns {r m : Nat} (hr : r < 32) (hm : m ≤ 64) (a : Display × Bool) :
    Blits rule (bitOver xStart yStart byteAt) (fun px py => columnAt xStart px < m ∧ rowAt yStart py = r) a
      ((List.range m).foldl
        (fun acc k => blitCell rule (spriteColumn xStart k) (spriteLine yStart r) (spriteBit (byteAt r) k) acc) a) := by
  induction m with
  | zero => exact .of_empty fun _ _ h => Nat.not_lt_zero _ h.1
  | succ m ih =>
    rw [List.range_succ, List.foldl_append, List.foldl_cons, List.foldl_nil,
      ← bitOver_spriteCell xStart yStart byteAt hr hm]
    refine (ih (by omega)).union (blits_blitCell _ _) (fun px py => ?disjoint) (fun px py => ?both)
    all_goals
      rw [← columnAt_eq_iff hm, ← rowAt_eq_iff hr]
      omega

theorem blits_blitRow {r : Nat} (hr : r < 32) (a : Display × Bool) :
    Blits rule (bitOver xStart yStart byteAt) (fun px py => columnAt xStart px < 8 ∧ rowAt yStart py = r) a
      (blitRow rule xStart (spriteLine yStart r) (byteAt r) a) :=
  blits_columns rule xStart yStart byteAt hr (by decide) a

/-- By induction on the number `m` of rows to go, from row `r` on. -/
theorem blits_blitRows {r m : Nat} (hrm : r + m ≤ 32) (a : Display × Bool) :
    Blits rule (bitOver xStart yStart byteAt)
      (fun px py => columnAt xStart px < 8 ∧ r ≤ rowAt yStart py ∧ rowAt yStart py < r + m) a
      (blitRows rule xStart yStart r ((List.range' r m).map byteAt) a) := by
  induction m generalizing r a with
  | zero => exact .of_empty fun _ _ h => by omega
  | succ m ih =>
    rw [List.range'_succ, List.map_cons, blitRows]
    exact (blits_blitRow rule xStart yStart byteAt (by omega) a).union (ih (by omega) _)
      (fun px py => by omega) (fun px py => by omega)

theorem blits_blit {n : Nat} (hn : n ≤ 32) (d : Display) :
    Blits rule (bitOver xStart yStart byteAt) (fun px py => columnAt xStart px < 8 ∧ rowAt yStart py < n) (d, false)
      (blit rule xStart yStart ((List.range n).map byteAt) d) := by
  rw [List.range_eq_range', blit]
  simpa using blits_blitRows rule xStart yStart byteAt (r := 0) (by omega) (d, false)

end Loops

/-! ### `DRW` -/

/-- The byte of sprite row `r`: the sprite begins at `I` (R151). -/
def spriteByte (s : State) (r : Nat) : Byte := Memory.read s.mem (s.i.toNat + r)

theorem bitOver_spriteByte (s : State) (x y : Reg) :
    bitOver (s.readV x).toNat (s.readV y).toNat (spriteByte s) = spriteBitOver s x y := rfl

theorem encodesAs_drw (x y : Reg) (n : Nibble) :
    EncodesAs (.drw x y n) (BitVec.ofNat 16 (0xD000 + x.val * 256 + y.val * 16 + n.toNat)) :=
  encodesAs_of_encode rfl rfl

section Drw

variable {s : State} {n : Nibble}

theorem spriteRows_of_spriteInMemory (h : spriteInMemory s n) :
    s.spriteRows s.i.toNat n.toNat = some ((List.range n.toNat).map (spriteByte s)) := by
  unfold spriteInMemory at h
  exact if_neg (by omega)

/-- A completed `DRW`: the blit of the covered cells under the sprite's bits, and its flag in `VF` (R151, R152). -/
theorem exec_drw_blits (x y : Reg) (h : spriteInMemory s n) :
    ∃ t f, exec (.drw x y n) s = .next t ∧ Changes [.display, .regs] [regVF] s t ∧ t.readV regVF = flagByte f ∧
      Blits s.collisionRule (spriteBitOver s x y) (covered s x y n) (s.disp, false) (t.disp, f) := by
  have hn : n.toNat ≤ 32 := by have := n.isLt; omega
  have hrows := spriteRows_of_spriteInMemory h
  have hblit := blits_blit s.collisionRule (s.readV x).toNat (s.readV y).toNat (spriteByte s) hn s.disp
  rw [bitOver_spriteByte] at hblit
  rcases execDrw_cases x y n s with ⟨hout, -⟩ | ⟨rows, hin, he⟩
  · cases hrows.symm.trans hout
  · cases hrows.symm.trans hin
    exact ⟨_, _, he, (changes_setDisp s _).trans (changes_writeV _ _ _), State.readV_writeV_same _ _ _, hblit⟩

end Drw

/-- Settles O30: the blit's formula for each cell, and the frame of its two writes. -/
theorem drawFlipsTheSpriteCells : Obligations.DrawFlipsTheSpriteCells := by
  refine fun x y n => ⟨encodesAs_drw x y n, fun s h => ?_⟩
  obtain ⟨t, f, he, hframe, hflag, hblit⟩ := exec_drw_blits x y h
  exact ⟨t, he, fun px py => ⟨hblit.flips px py, hblit.keeps px py⟩, hflag ▸ flagByte_zero_or_one f, hframe.regs,
    hframe.parts.mono (by decide)⟩

/-! ### The collision flag -/

theorem collides_standard (bit cur : Bool) : collides .standard bit cur = true ↔ bit = true ∧ cur = true :=
  Bool.and_eq_true_iff

theorem collides_literal (bit cur : Bool) : collides .literal bit cur = true ↔ bit = cur := beq_iff_eq

theorem collides_standard_flipped (bit cur : Bool) :
    collides .standard bit (cur ^^ bit) = true ↔ bit = true ∧ cur = false := by
  cases bit <;> simp [collides_standard]

theorem collides_literal_flipped (bit cur : Bool) : collides .literal bit (cur ^^ bit) = true ↔ cur = false := by
  cases bit <;> simp [collides_literal]

theorem flagByte_eq_one {f : Bool} : flagByte f = 1#8 ↔ f = true := by cases f <;> decide

/-- The flag byte of a blit that starts with the flag down, whatever the rule. -/
theorem Blits.flagByte_eq_one_iff {rule : CollisionRule} {bit : Fin 64 → Fin 32 → Bool}
    {region : Fin 64 → Fin 32 → Prop} {d : Display} {b : Display × Bool} (h : Blits rule bit region (d, false) b) :
    flagByte b.2 = 1#8 ↔ ∃ px py, region px py ∧ collides rule (bit px py) (Display.read d px py) = true := by
  simp [flagByte_eq_one, h.flag]

/-- Settles O31: the blit's flag, with the test of each rule written out. -/
theorem drawCollisionFlag : Obligations.DrawCollisionFlag := by
  intro x y n s h
  obtain ⟨t, f, he, -, hflag, hblit⟩ := exec_drw_blits x y h
  have hone := hblit.flagByte_eq_one_iff
  refine ⟨t, he, ?_⟩
  rw [hflag]
  refine ⟨fun hrule => ?standard, fun hrule => ?literal, (flagByte_zero_or_one f).resolve_right⟩
  case standard => simpa only [hrule, collides_standard] using hone
  case literal => simpa only [hrule, collides_literal] using hone

/-- Settles O32: both draws blit the same region under the same bits, and the second one's flag tests the cells that
the first one left. -/
theorem drawTwiceRestoresTheDisplay : Obligations.DrawTwiceRestoresTheDisplay := by
  intro x y n s h
  obtain ⟨t, f, he, -, -, hblit⟩ := exec_drw_blits x y h
  refine ⟨t, he, fun t' hdisp hmem hsize hi hrule hx hy => ?_⟩
  have hin : spriteInMemory t' n := by rwa [spriteInMemory, hi, hsize]
  have hbit : spriteBitOver t' x y = spriteBitOver s x y := by
    funext px py
    rw [spriteBitOver, hmem, hi, hx, hy, spriteBitOver]
  have hregion : covered t' x y n = covered s x y n := by
    funext px py
    rw [covered, hx, hy, covered]
  obtain ⟨u, g, he', -, hflag', hblit'⟩ := exec_drw_blits x y hin
  rw [hrule, hbit, hregion, hdisp] at hblit'
  have hone := hblit'.flagByte_eq_one_iff.trans hblit.again_collides
  refine ⟨u, he', hblit.again_read hblit', ?_⟩
  rw [hflag']
  refine ⟨fun hstd => ?standard, fun hlit => ?literal⟩
  case standard => simpa only [hstd, collides_standard_flipped] using hone
  case literal => simpa only [hlit, collides_literal_flipped] using hone

end Sys2Proof.Safety
end

section
/-! The key skips and the three timer instructions (O34, O36). -/

namespace Sys2Proof.Safety

open Sys2Proof.Machine

variable {s : State} {i : Instr} {x : Reg}

/-- The form `base + x * 256` of a word of format `X`: `base` holds the class and the selector `kk` (R74, R77). -/
theorem encodesAs_formatX {c : Nibble} {kk : Byte} {base : Nat} (hwf : i.wellFormed = true)
    (hi : encode i = wordXK c x kk) (hbase : base = c.toNat * 4096 + kk.toNat) :
    EncodesAs i (BitVec.ofNat 16 (base + x.val * 256)) := by
  have hsum : c.toNat * 4096 + x.val * 256 + kk.toNat = base + x.val * 256 := by omega
  exact encodesAs_of_encode hwf (hi.trans (congrArg (BitVec.ofNat 16) hsum))

/-! ### `SKP` and `SKNP` -/

theorem keyOfByte_eq_some {b : Byte} {k : Fin 16} (hk : b.toNat = k.val) : keyOfByte b = some k := by
  have hlt : b.toNat < 16 := hk ▸ k.isLt
  exact (keyOfByte_lt b hlt).trans (congrArg some (Fin.ext hk))

/-- Where `V[x]` selects a key, `SKP` is a conditional skip on that key (R160). -/
theorem exec_skp_of_key {k : Fin 16} (hk : (s.readV x).toNat = k.val) :
    exec (.skp x) s = skipIf (s.keyRead k) s := by
  rw [exec, execSkp, keyOfByte_eq_some hk]

/-- Where `V[x]` selects a key, `SKNP` is a conditional skip on that key's negation (R161). -/
theorem exec_sknp_of_key {k : Fin 16} (hk : (s.readV x).toNat = k.val) :
    exec (.sknp x) s = skipIf (!s.keyRead k) s := by
  rw [exec, execSknp, keyOfByte_eq_some hk]

/-- Settles O34: each of the two is a conditional skip on the selected key. -/
theorem keySkipsReadTheKey : Obligations.KeySkipsReadTheKey := by
  refine fun x => ⟨encodesAs_formatX rfl rfl rfl, encodesAs_formatX rfl rfl rfl, fun s k hk => ?_⟩
  rw [exec_skp_of_key hk, exec_sknp_of_key hk]
  exact ⟨skipIf_movesPc Iff.rfl s, skipIf_movesPc (Bool.not_eq_true' _).to_iff s⟩

/-! ### The timer instructions -/

theorem exec_ldDtVx (x : Reg) (s : State) : exec (.ldDtVx x) s = .next (s.setDt (s.readV x)) := rfl

theorem exec_ldStVx (x : Reg) (s : State) : exec (.ldStVx x) s = .next (s.setSt (s.readV x)) := rfl

/-- Settles O36: each of the three is one write, of a register or of a timer. -/
theorem timerInstructionsMoveOneByte : Obligations.TimerInstructionsMoveOneByte := by
  refine fun x => ⟨encodesAs_formatX rfl rfl rfl, encodesAs_formatX rfl rfl rfl, encodesAs_formatX rfl rfl rfl,
    fun s => ⟨?readDelay, ?writeDelay, ?writeSound⟩⟩
  case readDelay => exact exec_writeV rfl
  case writeDelay => exact ⟨_, exec_ldDtVx x s, rfl, (changes_setDt s _).parts⟩
  case writeSound => exact ⟨_, exec_ldStVx x s, rfl, (changes_setSt s _).parts⟩

end Sys2Proof.Safety
end

section
/-! The step of a Running machine whose fetched word decodes (O6). -/

namespace Sys2Proof.Safety

open Sys2Proof.Machine

/-- Settles O6: the decoder answers well-formed instructions only, and the fetch increment is the write of `PC + 2`. -/
theorem stepRunsTheDecodedInstruction : Obligations.StepRunsTheDecodedInstruction := by
  intro s w i hm hf hd
  obtain ⟨-, hwf⟩ := encodeOfDecodeIsTheWord w i hd
  exact ⟨hwf, step_of_decode hm hf hd⟩

end Sys2Proof.Safety
end

section
/-! The table of faults: which instruction enters which fault in which state, and what a faulted step leaves (O7, O8,
O9, O14, O16, O33, O35, O39, O40, O41). -/

namespace Sys2Proof.Safety

open Sys2Proof.Machine

variable {s t : State} {i : Instr}

/-! ### What `exec` answers -/

/-- Every instruction has a next state, but for `CALL` and `RET` above the stack's depth, where the table of R182 names
no fault (log entry 9). -/
theorem exec_answers (i : Instr) (s : State) :
    (∃ t, exec i s = .next t) ∨
      (s.stackDepth < s.sp ∧ raises i s = none ∧ exec i s = .fault .stackPointerOutOfRange) := by
  cases i with
  | call addr =>
    rcases execCall_cases addr s with ⟨-, he⟩ | ⟨-, he⟩ | ⟨hsp, he⟩
    · exact .inl ⟨_, he⟩
    · exact .inl ⟨_, he⟩
    · exact .inr ⟨hsp, if_neg hsp.ne', he⟩
  | ret =>
    rcases execRet_cases s with ⟨-, he⟩ | ⟨-, a, -, he⟩ | ⟨hsp, he⟩
    · exact .inl ⟨_, he⟩
    · exact .inl ⟨_, he⟩
    · exact .inr ⟨hsp, if_neg (by omega), he⟩
  | drw x y n => rcases execDrw_cases x y n s with ⟨-, he⟩ | ⟨_, -, he⟩ <;> exact .inl ⟨_, he⟩
  | skp x => rcases execSkp_cases x s with ⟨-, he⟩ | ⟨_, he⟩ <;> exact .inl ⟨_, he⟩
  | sknp x => rcases execSknp_cases x s with ⟨-, he⟩ | ⟨_, he⟩ <;> exact .inl ⟨_, he⟩
  | _ => exact .inl ⟨_, rfl⟩

theorem exec_fault {f : Fault} (h : exec i s = .fault f) : f = .stackPointerOutOfRange := by
  rcases exec_answers i s with ⟨t, he⟩ | ⟨-, -, he⟩
  · cases he.symm.trans h
  · cases he.symm.trans h
    rfl

/-- Where the table of R182 names a fault, the instruction enters it, in any state. -/
theorem exec_of_raises {c : BitVec 3} {w : Word} (h : raises i s = some c) (hw : encode i = w) :
    ∃ t, exec i s = .next t ∧ FaultEntered c w (s.pc - 2#16) s t := by
  subst hw
  rcases exec_answers i s with ⟨t, he⟩ | ⟨-, h0, -⟩
  · rcases exec_next he with ⟨cause, hcause, rfl⟩ | hdone
    · cases hcause.symm.trans h
      exact ⟨_, he, faultEntered_raise s cause _ _⟩
    · cases hdone.no_fault.symm.trans h
  · cases h0.symm.trans h

/-- Without a fault `HALT` alone writes the mode. -/
theorem exec_mode_of_no_fault (h : exec i s = .next t) (h0 : raises i s = none) :
    t.mode = if i = .halt then .halted else s.mode := by
  split_ifs with hi
  · subst hi
    cases h
    rfl
  · exact exec_samePart h (mt mode_mem_writtenParts.1 hi) fun _ => h0

/-- Settles O40: up to the stack's depth no instruction stops, so it enters the table's fault or completes. -/
theorem faultConditionsAreThoseOfTheTable : Obligations.FaultConditionsAreThoseOfTheTable := by
  intro i s hsp
  rcases exec_answers i s with ⟨t, he⟩ | ⟨hout, -, -⟩
  · refine ⟨t, he, fun c hc => ?fault, fun h0 => ?completes⟩
    case fault =>
      obtain ⟨u, hu, hentered⟩ := exec_of_raises hc rfl
      cases hu.symm.trans he
      exact hentered
    case completes =>
      exact ⟨exec_samePart he faultRecord_notMem_writtenParts fun _ => h0, exec_mode_of_no_fault he h0⟩
  · exact absurd hsp hout.not_ge

/-! ### The faults of single instructions: the row of the table, with the word written out -/

/-- Settles O16: the table names `SysUnsupported` without a condition. -/
theorem sysAlwaysFaults : Obligations.SysAlwaysFaults := by
  intro addr hhalt hcls hret
  have hwf : (Instr.sys addr).wellFormed = true := by simp [Instr.wellFormed, hhalt, hcls, hret]
  have hw : encode (.sys addr) = BitVec.ofNat 16 addr.toNat := by simp [encode, wordA]
  exact ⟨encodesAs_of_encode hwf hw, fun s => exec_of_raises rfl hw⟩

/-- Settles O33: a sprite out of memory is the table's condition for `DRW`. -/
theorem drawOutsideMemoryFaults : Obligations.DrawOutsideMemoryFaults := by
  intro x y n s hout
  have hraises : raises (.drw x y n) s = some 6#3 := by
    unfold spriteInMemory at hout
    exact if_pos (by omega)
  exact exec_of_raises hraises (encodesAs_drw x y n).2

theorem encodesAs_skp (x : Reg) : EncodesAs (.skp x) (BitVec.ofNat 16 (0xE09E + x.val * 256)) :=
  encodesAs_formatX rfl rfl rfl

theorem encodesAs_sknp (x : Reg) : EncodesAs (.sknp x) (BitVec.ofNat 16 (0xE0A1 + x.val * 256)) :=
  encodesAs_formatX rfl rfl rfl

/-- Settles O35: the two rows of `KeyIndex`. -/
theorem keyIndexAboveFifteenFaults : Obligations.KeyIndexAboveFifteenFaults := by
  intro x s hx
  exact ⟨exec_of_raises (if_pos hx) (encodesAs_skp x).2, exec_of_raises (if_pos hx) (encodesAs_sknp x).2⟩

/-- Settles O39: the table names `Unimplemented` for each of the five without a condition. -/
theorem unimplementedOpcodesFault : Obligations.UnimplementedOpcodesFault := by
  intro x i low hmem
  simp only [List.mem_cons, Prod.mk.injEq, List.not_mem_nil, or_false] at hmem
  obtain ⟨rfl, rfl⟩ | ⟨rfl, rfl⟩ | ⟨rfl, rfl⟩ | ⟨rfl, rfl⟩ | ⟨rfl, rfl⟩ := hmem
  all_goals exact ⟨encodesAs_of_encode rfl rfl, fun s => exec_of_raises rfl rfl⟩

/-- Settles O14: the slot below `SP` is the top slot, and the empty stack is the table's condition for `RET`. -/
theorem returnPopsTheReturnAddress : Obligations.ReturnPopsTheReturnAddress := by
  refine ⟨encodesAs_of_encode rfl rfl, fun s h0 hsp => ?_, fun s h0 => exec_of_raises (if_pos h0) rfl⟩
  obtain ⟨a, htop, hslot⟩ := s.topSlot_inside h0 hsp
  have hframe : SameExcept [.pc, .stack] s (s.pop.setPc a) :=
    ((changes_pop s).trans (changes_setPc _ _)).parts.mono (by decide)
  exact ⟨_, execRet_of_topSlot h0 htop, hslot, rfl, rfl, hframe⟩

/-! ### The step -/

theorem step_of_faulted (hm : s.mode = .faulted) : step s = .fault .stuckFaulted := by
  simp only [step, hm]

theorem step_of_illegal {w : Word} (hm : s.mode = .running) (hf : Fetches s w) (hd : decodeWord w = none) :
    step s = .next (s.advance.raise .decodeError w s.pc) := by
  simp only [step, hm, fetches_iff.1 hf, hd]

/-- Settles O7: the fault entry at the fetch. -/
theorem stepOutsideMemoryFaults : Obligations.StepOutsideMemoryFaults := by
  intro s hm hout
  exact ⟨_, step_of_fetch_none hm (s.fetch_eq_none.2 hout), faultEntered_raise s .memoryBounds _ _⟩

/-- Settles O8: the fault entry at the decoder, after the fetch increment. -/
theorem stepOnIllegalWordFaults : Obligations.StepOnIllegalWordFaults := by
  intro s w hm hf hd
  exact ⟨_, step_of_illegal hm hf hd, rfl, faultEntered_raise s.advance .decodeError _ _⟩

/-- Settles O9: a Running machine's fetch and decoder enter a fault as a next state, so that a fault of the model comes
from `exec`. -/
theorem stoppedMachineTakesNoStep : Obligations.StoppedMachineTakesNoStep := by
  refine fun s => ⟨step_of_halted, step_of_faulted, fun f hs hf hm => ?_⟩
  rcases step_cases s with ⟨hm', -⟩ | ⟨hm', -⟩ | ⟨-, -, he⟩ | ⟨-, w, -, -, he⟩ | ⟨-, w, i, -, -, he⟩
  · cases hm.symm.trans hm'
  · cases hm.symm.trans hm'
  · cases he.symm.trans hs
  · cases he.symm.trans hs
  · exact hf (exec_fault (he.symm.trans hs))

theorem exec_faults_of_mode_faulted (hm : s.mode = .running) (h : exec i s = .next t) (ht : t.mode = .faulted) :
    Faults i s t := by
  rcases exec_next h with hfault | hdone
  · exact hfault
  · have hmode := exec_mode_of_no_fault h hdone.no_fault
    rw [ht, hm] at hmode
    split_ifs at hmode

/-- The fault entered after the fetch increment, whichever way it was raised. -/
theorem changes_advance_raise (s : State) (c : FaultCause) (word addr : Word) :
    SameExcept [.pc, .mode, .faultRecord] s (s.advance.raise c word addr) :=
  ((changes_setPc s _).trans (changes_raise s.advance c word addr)).parts

/-- Settles O41: the fault is raised by the fetch, by the decoder or by the instruction, and each time `raise` writes
the record. -/
theorem faultsArePrecise : Obligations.FaultsArePrecise := by
  intro s t hs ht
  have hm := mode_running_of_step hs
  rcases step_cases s with ⟨hm', -⟩ | ⟨hm', -⟩ | ⟨-, hf, he⟩ | ⟨-, w, hf, hd, he⟩ | ⟨-, w, i, hf, hd, he⟩
  · cases hm.symm.trans hm'
  · cases hm.symm.trans hm'
  · cases he.symm.trans hs
    have hframe : SameExcept [.pc, .mode, .faultRecord] s (s.raise .memoryBounds 0#16 s.pc) :=
      (changes_raise s _ _ _).parts.mono (by decide)
    exact ⟨hm, rfl, faultCause_code_ne_zero .memoryBounds, hframe, .inl ⟨s.fetch_eq_none.1 hf, rfl, rfl, rfl⟩⟩
  · cases he.symm.trans hs
    refine ⟨hm, rfl, faultCause_code_ne_zero .decodeError, changes_advance_raise s _ _ _,
      .inr ⟨w, fetches_iff.2 hf, rfl, rfl, ?_⟩⟩
    rw [hd]
    rfl
  · obtain ⟨c, hc, rfl⟩ := exec_faults_of_mode_faulted (s := s.advance) hm (he.symm.trans hs) ht
    have haddr : s.advance.pc - 2#16 = s.pc := BitVec.add_sub_cancel s.pc 2#16
    refine ⟨hm, haddr, faultCause_code_ne_zero c, changes_advance_raise s _ _ _,
      .inr ⟨w, fetches_iff.2 hf, rfl, (encodeOfDecodeIsTheWord w i hd).1, ?_⟩⟩
    rw [hd]
    exact hc

end Sys2Proof.Safety
end

section
/-! Memory: its canonical form is unique, a placed word is fetched, an image is loaded byte for byte, and no move of the
host but a reset changes it (O10, O49, O52, O56). -/

namespace Sys2Proof.Machine

/-! ### The canonical form -/

/-- The first listed byte differs from an unlisted one, so a memory that reads the same lists an address no higher. -/
theorem Memory.exists_le_of_same_read {k : Nat} {b : Byte} {rest m : Memory} (hb : b ≠ Memory.unlisted)
    (h : ∀ a, Memory.read ((k, b) :: rest) a = Memory.read m a) : ∃ c ∈ m, c.1 ≤ k := by
  by_contra! hbelow
  have hk := h k
  rw [Memory.read_cons, if_pos rfl, Memory.read_below m k hbelow] at hk
  exact hb hk

/-- As `Memory.exists_le_of_same_read`, where the other memory is canonical: its first listed address is the lowest. -/
theorem Memory.head_le_of_same_read {k k' : Nat} {b b' : Byte} {rest rest' : Memory} (hb : b ≠ Memory.unlisted)
    (hrest' : ∀ c ∈ rest', k' < c.1)
    (h : ∀ a, Memory.read ((k, b) :: rest) a = Memory.read ((k', b') :: rest') a) : k' ≤ k := by
  obtain ⟨c, hc, hle⟩ := Memory.exists_le_of_same_read hb h
  rcases List.mem_cons.1 hc with rfl | hc
  · exact hle
  · exact (hrest' c hc).le.trans hle

/-- Below a common first entry the rest reads the same too: at the entry's own address it lists nothing. -/
theorem Memory.same_read_tail {k : Nat} {b : Byte} {rest rest' : Memory} (hrest : ∀ c ∈ rest, k < c.1)
    (hrest' : ∀ c ∈ rest', k < c.1) (h : ∀ a, Memory.read ((k, b) :: rest) a = Memory.read ((k, b) :: rest') a)
    (a : Nat) : Memory.read rest a = Memory.read rest' a := by
  by_cases ha : a = k
  · subst ha
    rw [Memory.read_below rest a hrest, Memory.read_below rest' a hrest']
  · simpa only [Memory.read_cons, if_neg ha] using h a

/-- Settles O56, by induction on the two lists: they have the same first entry, and their rests read the same. -/
theorem canonicalMemoryIsUnique : Obligations.CanonicalMemoryIsUnique := by
  intro m m' hm hm' h
  induction m generalizing m' with
  | nil =>
    cases m' with
    | nil => rfl
    | cons c' rest' =>
      obtain ⟨hb', -, -⟩ := (Memory.wf_cons c'.1 c'.2 rest').1 hm'
      obtain ⟨c, hc, -⟩ := Memory.exists_le_of_same_read hb' fun a => (h a).symm
      cases hc
  | cons c rest ih =>
    obtain ⟨k, b⟩ := c
    obtain ⟨hb, hrest, hwf⟩ := (Memory.wf_cons k b rest).1 hm
    cases m' with
    | nil =>
      obtain ⟨c, hc, -⟩ := Memory.exists_le_of_same_read hb h
      cases hc
    | cons c' rest' =>
      obtain ⟨k', b'⟩ := c'
      obtain ⟨hb', hrest', hwf'⟩ := (Memory.wf_cons k' b' rest').1 hm'
      obtain rfl : k = k' := Nat.le_antisymm (Memory.head_le_of_same_read hb' hrest fun a => (h a).symm)
        (Memory.head_le_of_same_read hb hrest' h)
      obtain rfl : b = b' := by simpa [Memory.read_cons] using h k
      rw [ih rest' hwf hwf' (Memory.same_read_tail hrest hrest' h)]

/-! ### A placed word -/

theorem ofNat_toNat_mod_eq (w : Word) : BitVec.ofNat 16 (w.toNat % 2 ^ 16) = w := by
  rw [Nat.mod_eq_of_lt w.isLt, BitVec.ofNat_toNat, BitVec.setWidth_eq]

theorem decodeTableWord_toNat (w : Word) : decodeTableWord 16 w.toNat = decodeWord w := by
  simp only [decodeTableWord, ofNat_toNat_mod_eq, decodeBytes, wordOfBytes_hi_lo]
  cases decodeWord w <;> rfl

theorem withFetchWord_mem (s : State) (w : Word) :
    (s.withFetchWord 16 w.toNat).mem =
      Memory.write (Memory.write s.mem s.pc.toNat (hiByte w)) (s.pc.toNat + 1) (loByte w) := by
  rw [State.withFetchWord, ofNat_toNat_mod_eq]

theorem fetches_withFetchWord {s : State} (hin : s.pc.toNat + 1 < s.memSize) (hwf : Memory.wf s.mem = true)
    (w : Word) : Safety.Fetches (s.withFetchWord 16 w.toNat) w := by
  refine ⟨hin, ?_⟩
  have hhi : Memory.read (s.withFetchWord 16 w.toNat).mem s.pc.toNat = hiByte w := by
    rw [withFetchWord_mem, Memory.read_write_other _ _ _ _ (by omega), Memory.read_write_same _ _ _ hwf]
  have hlo : Memory.read (s.withFetchWord 16 w.toNat).mem (s.pc.toNat + 1) = loByte w := by
    rw [withFetchWord_mem, Memory.read_write_same _ _ _ (Memory.wf_write _ _ _ hwf)]
  calc wordOfBytes (Memory.read (s.withFetchWord 16 w.toNat).mem s.pc.toNat)
        (Memory.read (s.withFetchWord 16 w.toNat).mem (s.pc.toNat + 1))
    _ = wordOfBytes (hiByte w) (loByte w) := by rw [hhi, hlo]
    _ = w := wordOfBytes_hi_lo w

/-- Settles O10: the step fetches the two bytes just written, and only `PC` and `MEM` enter the fetch. -/
theorem placedWordIsFetchedAndRun : Obligations.PlacedWordIsFetchedAndRun := by
  intro s w hm hin hwf
  have hf := fetches_withFetchWord hin hwf w
  refine ⟨hf, decodeTableWord_toNat w, fun i hi => ?runs, fun a hhi hlo => ?frame⟩
  case runs => exact Safety.step_of_decode hm hf (decodeTableWord_toNat w ▸ hi)
  case frame => rw [withFetchWord_mem, Memory.read_write_other _ _ _ _ hlo, Memory.read_write_other _ _ _ _ hhi]

/-! ### A loaded image -/

/-- From its first address on a loaded image reads byte for byte, and memory beyond it as before. -/
theorem Memory.read_load (m : Memory) (a : Nat) (bs : List Byte) (k : Nat) (hwf : Memory.wf m = true) :
    Memory.read (Memory.load m a bs) (a + k) = (bs[k]?).getD (Memory.read m (a + k)) := by
  induction bs generalizing m a k with
  | nil => rfl
  | cons b rest ih =>
    rw [Memory.load]
    cases k with
    | zero => exact (Memory.read_load_below _ _ rest a a.lt_succ_self).trans (Memory.read_write_same m a b hwf)
    | succ k =>
      have haddr : a + (k + 1) = a + 1 + k := by omega
      rw [haddr, ih _ _ k (Memory.wf_write m a b hwf), List.getElem?_cons_succ,
        Memory.read_write_other m a _ b (by omega)]

theorem read_launchState (l : Launch) (s : State) (k : Nat) :
    Memory.read (launchState l s).mem k = (l.image[k]?).getD 0#8 := by
  have hload := Memory.read_load [] 0 l.image k rfl
  rwa [Nat.zero_add] at hload

/-- Settles O49: memory is the image loaded into empty memory, and the other parts are the launch's fields. -/
theorem launchLoadsTheImage : Obligations.LaunchLoadsTheImage := by
  intro l s t h
  obtain ⟨-, rfl⟩ := (Safety.launch_eq_next l).1 h
  refine ⟨fun k b hk => ?image, fun k hk => ?beyond, rfl, rfl, List.length_replicate, rfl, rfl, fun _ => rfl⟩
  case image => rw [read_launchState, hk, Option.getD_some]
  case beyond => rw [read_launchState, List.getElem?_eq_none hk, Option.getD_none]

end Sys2Proof.Machine

namespace Sys2Proof.Safety

open Sys2Proof.Machine

variable {s t u : State} {i : Instr}

/-! ### Memory and parameters between two resets -/

/-- What only a reset changes: memory, the two parameters and the number of stack slots. -/
structure SameConfig (s t : State) : Prop where
  memory : SamePart .memory s t
  params : SamePart .params s t
  stackDepth : t.stackDepth = s.stackDepth

theorem SameConfig.refl (s : State) : SameConfig s s := ⟨fun _ => rfl, ⟨rfl, rfl⟩, rfl⟩

theorem SameConfig.trans (h : SameConfig s t) (h' : SameConfig t u) : SameConfig s u :=
  ⟨h.memory.trans h'.memory, h.params.trans h'.params, h'.stackDepth.trans h.stackDepth⟩

/-- `CALL` and `RET` alone write the stack, and neither adds or removes a slot. -/
theorem exec_stackDepth (h : exec i s = .next t) : t.stackDepth = s.stackDepth := by
  by_cases hstack : Part.stack ∈ writtenParts i
  · rcases stack_mem_writtenParts.1 hstack with ⟨addr, rfl⟩ | rfl
    · rcases execCall_cases addr s with ⟨-, he⟩ | ⟨-, he⟩ | ⟨-, he⟩
      · cases he.symm.trans h
        rfl
      · cases he.symm.trans h
        exact s.push_stackDepth s.pc
      · cases he.symm.trans h
    · rcases execRet_cases s with ⟨-, he⟩ | ⟨-, a, -, he⟩ | ⟨-, he⟩
      · cases he.symm.trans h
        rfl
      · cases he.symm.trans h
        rfl
      · cases he.symm.trans h
  · obtain ⟨-, hslots⟩ := exec_samePart h hstack nofun
    exact congrArg List.length hslots

theorem exec_sameConfig (h : exec i s = .next t) : SameConfig s t where
  memory := exec_samePart h memory_notMem_writtenParts nofun
  params := exec_samePart h params_notMem_writtenParts nofun
  stackDepth := exec_stackDepth h

theorem sameConfig_raise (s : State) (c : FaultCause) (word addr : Word) : SameConfig s (s.raise c word addr) :=
  ⟨fun _ => rfl, ⟨rfl, rfl⟩, rfl⟩

theorem sameConfig_advance (s : State) : SameConfig s s.advance := ⟨fun _ => rfl, ⟨rfl, rfl⟩, rfl⟩

theorem step_sameConfig (h : step s = .next t) : SameConfig s t := by
  rcases step_cases s with ⟨-, he⟩ | ⟨-, he⟩ | ⟨-, -, he⟩ | ⟨-, w, -, -, he⟩ | ⟨-, w, i, -, -, he⟩
  · cases he.symm.trans h
  · cases he.symm.trans h
  · cases he.symm.trans h
    exact sameConfig_raise s _ _ _
  · cases he.symm.trans h
    exact (sameConfig_advance s).trans (sameConfig_raise s.advance _ _ _)
  · exact (sameConfig_advance s).trans (exec_sameConfig (he.symm.trans h))

theorem hostMove_sameConfig {m : HostMove} (hm : ∀ l, m ≠ .resetWith l) (h : hostMove m s = .next t) :
    SameConfig s t := by
  cases m with
  | cpuTick => exact step_sameConfig h
  | resetWith l => exact absurd rfl (hm l)
  | timerTick | keyChange => cases h; exact ⟨fun _ => rfl, ⟨rfl, rfl⟩, rfl⟩
  | readOut | stopTicking => cases h; exact .refl s

/-- Settles O52, by induction on the schedule. -/
theorem memoryIsConstantDuringARun : Obligations.MemoryIsConstantDuringARun := by
  intro ms s t hreset hr
  have hkeeps : ∀ m ∈ ms, ∀ u v, SameConfig s u → hostMove m u = .next v → SameConfig s v :=
    fun m hmem u v hu hv => hu.trans (hostMove_sameConfig (fun l hm => hreset l (hm ▸ hmem)) hv)
  obtain ⟨hmemory, hparams, hdepth⟩ := runMoves_induction hkeeps (SameConfig.refl s) hr
  exact ⟨hmemory, hparams, hdepth⟩

end Sys2Proof.Safety
end

section
/-! Reset, the launch and the other moves of the host (O37, O38, O48, O50, O51, O53). -/

namespace Sys2Proof.Safety

open Sys2Proof.Machine

variable {s t : State}

/-! ### Reset and launch -/

theorem readV_reset (r : Reg) : State.reset.readV r = 0#8 := by simp [State.readV, State.reset]

/-- Settles O50: the conditions under which `launch` answers a next state. -/
theorem launchAcceptsTheAllowedConfigurations : Obligations.LaunchAcceptsTheAllowedConfigurations := by
  intro l s
  constructor
  · rintro ⟨t, h⟩
    exact ((launch_eq_next l).1 h).1
  · intro hok
    exact ⟨launchState l s, (launch_eq_next l).2 ⟨hok, rfl⟩⟩

/-- The launch of the reference parameters with no image, a blank display and no random byte. -/
def referenceLaunch : Launch where
  params := Config.reference
  image := []
  display := Display.blank
  draws := []

theorem launch_referenceLaunch_reset : launch referenceLaunch State.reset = .next State.reset := rfl

/-- Settles O48: the reset state too is one that a launch gives, and a launch takes these parts from it, the stack's
slots apart. -/
theorem resetLeavesTheSpecsValues : Obligations.ResetLeavesTheSpecsValues := by
  intro l s t h
  obtain ⟨l', s', rfl⟩ : ∃ l' s', t = launchState l' s' := by
    rcases h with h | rfl
    · exact ⟨l, s, ((launch_eq_next l).1 h).2⟩
    · exact ⟨referenceLaunch, State.reset, rfl⟩
  exact ⟨readV_reset, fun _ ha => List.eq_of_mem_replicate ha, rfl, rfl, rfl, rfl, rfl, rfl⟩

/-- Settles O53: the reset state is one that a launch gives. -/
theorem invariantHoldsAtReset : Obligations.InvariantHoldsAtReset :=
  inv_of_launch launch_referenceLaunch_reset

/-! ### Timer ticks and key changes -/

theorem tickTimer_toNat (b : Byte) : (tickTimer b).toNat = b.toNat - 1 := by
  have hb := b.isLt
  unfold tickTimer
  split_ifs with h0
  · simp [h0]
  · have hpos : b.toNat ≠ 0 := fun h => h0 (BitVec.eq_of_toNat_eq h)
    rw [BitVec.toNat_sub, BitVec.toNat_ofNat]
    omega

theorem changes_timerTick (s : State) : Changes [.delay, .sound] [] s s.timerTick := .of_parts

theorem changes_setKey (s : State) (k : Fin 16) (b : Bool) : Changes [.keys] [] s (s.setKey k b) := .of_parts

theorem SamePart.refl (p : Part) (s : State) : SamePart p s s := by cases p <;> simp [SamePart]

theorem SameExcept.refl (ps : List Part) (s : State) : SameExcept ps s s := fun p _ => .refl p s

/-- Settles O37: the tick of each timer as a truncated subtraction. -/
theorem timerTickCountsDownToZero : Obligations.TimerTickCountsDownToZero := fun s =>
  ⟨s.timerTick, rfl, tickTimer_toNat s.dt, tickTimer_toNat s.st, (changes_timerTick s).parts⟩

/-- Settles O51, move by move. -/
theorem hostMovesTouchTimersAndKeysOnly : Obligations.HostMovesTouchTimersAndKeysOnly := by
  intro m s htick hreset
  cases m with
  | cpuTick => exact absurd rfl htick
  | resetWith l => exact absurd rfl (hreset l)
  | timerTick =>
    exact ⟨_, rfl, (changes_timerTick s).parts.mono (by decide), fun h => absurd rfl h, fun _ _ => rfl, nofun⟩
  | keyChange k b =>
    refine ⟨_, rfl, (changes_setKey s k b).parts.mono (by decide), fun _ => ⟨rfl, rfl⟩, fun h => ?keys, ?key⟩
    case keys => exact absurd rfl (h k b)
    case key =>
      rintro _ _ ⟨⟩
      exact ⟨(s.keyRead_setKey k k b).trans (if_pos rfl), fun q hq => (s.keyRead_setKey k q b).trans (if_neg hq)⟩
  | readOut | stopTicking => exact ⟨s, rfl, .refl _ s, fun _ => ⟨rfl, rfl⟩, fun _ _ => rfl, nofun⟩

/-- By induction on the number of ticks. -/
theorem runMoves_timerTicks (k : Nat) (s : State) :
    ∃ t, runMoves (List.replicate k .timerTick) s = .next t ∧ t.dt.toNat = s.dt.toNat - k ∧
      SameExcept [.delay, .sound] s t := by
  induction k generalizing s with
  | zero => exact ⟨s, rfl, rfl, .refl _ s⟩
  | succ k ih =>
    obtain ⟨t, hrun, hdt, hframe⟩ := ih s.timerTick
    refine ⟨t, runMoves_cons_eq_next.2 ⟨s.timerTick, rfl, hrun⟩, ?_, (changes_timerTick s).parts.trans hframe⟩
    rw [hdt, State.timerTick_dt, tickTimer_toNat, Nat.sub_sub, Nat.add_comm]

/-- Settles O38: the write of the timer, the ticks, and the read. -/
theorem delayReadIsWriteLessTicks : Obligations.DelayReadIsWriteLessTicks := by
  intro x y k s
  obtain ⟨u, hrun, hdt, hticks⟩ := runMoves_timerTicks k (s.setDt (s.readV x))
  have hframe := (changes_setDt s _).trans ((Changes.of_parts hticks).trans (changes_writeV u y u.dt))
  have hread : ((u.writeV y u.dt).readV y).toNat = (s.readV x).toNat - k := by
    rw [State.readV_writeV_same, hdt, State.setDt_dt]
  exact ⟨_, u, u.writeV y u.dt, exec_ldDtVx x s, hrun, rfl, hread, hframe.regs, hframe.parts.mono (by decide)⟩

end Sys2Proof.Safety
end

section
/-! `JP V0`, the arithmetic flag writers with destination `VF`, `ADD I` and `RND` (O17, O24, O27, O28). -/

namespace Sys2Proof.Safety

open Sys2Proof.Machine

variable {s : State} {i : Instr}

/-- The greatest sum is `0xFFF + 0xFF`, so it does not wrap. -/
theorem zextAddr_add_zextByte_toNat (addr : Addr12) (b : Byte) :
    (zextAddr addr + zextByte b).toNat = addr.toNat + b.toNat := by
  have haddr := addr.isLt
  have hb := b.isLt
  rw [BitVec.toNat_add, zextAddr_toNat, zextByte_toNat]
  omega

/-- Settles O17: the jump is one write of `PC`. -/
theorem jumpV0AddsRegisterZero : Obligations.JumpV0AddsRegisterZero := by
  refine fun addr => ⟨encodesAs_of_encode rfl rfl, fun s => ?_⟩
  exact ⟨_, rfl, zextAddr_add_zextByte_toNat addr (s.readV 0), (changes_setPc s _).parts⟩

/-- With `VF` as destination the flag, written last (R131), replaces the result. -/
theorem exec_writeResultFlag_regVF {r : Byte × Bool} {n : Nat} (he : exec i s = .next (s.writeResultFlag regVF r))
    (hflag : (flagByte r.2).toNat = n) :
    ∃ t, exec i s = .next t ∧ RegsExcept [regVF] s t ∧ SameExcept [.regs] s t ∧ (t.readV regVF).toNat = n := by
  have hframe := changes_writeResultFlag s regVF r
  have hregs : RegsExcept [regVF] s (s.writeResultFlag regVF r) := fun q hq => hframe.regs q (by simpa using hq)
  exact ⟨_, he, hregs, hframe.parts, by rw [State.readV_writeResultFlag, if_pos rfl, hflag]⟩

/-- Settles O24: the flag of each of the six as a number. -/
theorem flagWrittenLastIntoVF : Obligations.FlagWrittenLastIntoVF := by
  refine fun y kk s => ⟨?addImm, ?addReg, ?sub, ?subn, ?shr, ?shl⟩
  case addImm | addReg | sub | subn => exact exec_writeResultFlag_regVF rfl (flagByte_decide_toNat _)
  case shr => exact exec_writeResultFlag_regVF rfl (shiftRight1_flag_toNat _)
  case shl => exact exec_writeResultFlag_regVF rfl (shiftLeft1_flag_toNat _)

/-- Settles O27: 16-bit addition is addition modulo 2^16. -/
theorem addIndexWrapsAtSixteenBits : Obligations.AddIndexWrapsAtSixteenBits := by
  refine fun x => ⟨encodesAs_formatX rfl rfl rfl, fun s => ⟨_, rfl, ?_, (changes_setI s _).parts⟩⟩
  rw [State.setI_i, BitVec.toNat_add, zextByte_toNat]

theorem exec_rnd (x : Reg) (kk : Byte) (s : State) :
    exec (.rnd x kk) s = .next (s.randomByte.2.writeV x (s.randomByte.1 &&& kk)) := rfl

/-- Settles O28: one draw, and one write of the masked byte. -/
theorem randomByteIsMasked : Obligations.RandomByteIsMasked := by
  refine fun x kk => ⟨encodesAs_of_encode rfl rfl, fun s => ?anyDraw, fun s b rest hdraws => ?supplied⟩
  case anyDraw =>
    have hframe := (changes_randomByte s).trans (changes_writeV s.randomByte.2 x (s.randomByte.1 &&& kk))
    refine ⟨_, s.randomByte.1, exec_rnd x kk s, State.readV_writeV_same _ x _, ?_, hframe.regs,
      hframe.parts.mono (by decide)⟩
    simp [BitVec.and_assoc]
  case supplied =>
    rw [exec_rnd, s.randomByte_supplied b rest hdraws]
    exact ⟨_, rfl, State.readV_writeV_same _ x _, rfl⟩

end Sys2Proof.Safety
end
